-- ==== Sys2Proof/Word.lean ====
section
/-! DEFINITION. The machine's word types (spec 00_scope.md R7, R8; 20_memory.md R50, R56). -/

namespace Sys2Proof

/-- One byte of buffer memory, and one byte on the bus (20_memory.md R59). -/
abbrev Byte := BitVec 8

/-- One host register word, and one command word (20_memory.md R56, 30_encoding.md R70). -/
abbrev Word := BitVec 32

/-- A buffer memory address of `BUF_ADDR_WIDTH` = 16 bits (00_scope.md R7, 20_memory.md R50). -/
abbrev Addr := BitVec 16

end Sys2Proof
end

