-- ==== Sys2Proof/Syntax.lean ====
section
/-! DEFINITION. The eight commands of the block, one constructor per row of the opcode map
(spec 30_encoding.md R73), with the operands of R72 at their field widths. -/

namespace Sys2Proof

/-- A decoded command (30_encoding.md R72, R73). Every operand has the width of its field, so a
value outside the field cannot be written down. -/
inductive Instr where
  /-- INIT: configure the bus clock for `rate` units of 100 kHz. -/
  | init (rate : BitVec 8)
  /-- START: a start condition, then the address byte `sla` (bit 0 is the direction). -/
  | start (sla : BitVec 8)
  /-- STOP: release the bus if it is held. -/
  | stop
  /-- WRITE: transmit one byte. -/
  | write (byte : BitVec 8)
  /-- READ: receive one byte, then send ACK (`true`) or NACK (`false`). -/
  | read (ack : Bool)
  /-- WRBUF: sub-address `sub`, then `len` bytes of the buffer at BUFPTR, to device `dev`. -/
  | wrbuf (dev : BitVec 7) (sub : BitVec 8) (len : BitVec 8)
  /-- WRSINGLE: sub-address `sub`, then `byte`, to device `dev`. -/
  | wrsingle (dev : BitVec 7) (sub : BitVec 8) (byte : BitVec 8)
  /-- RDBUF: sub-address `sub`, then `len` bytes from device `dev` into the buffer at BUFPTR. -/
  | rdbuf (dev : BitVec 7) (sub : BitVec 8) (len : BitVec 8)
deriving DecidableEq, Repr

end Sys2Proof
end

