-- ==== Sys2Proof/WellFormed.lean ====
section
/-! DEFINITION. Well-formedness: of the fields of a command word (spec 30_encoding.md R71, R73, R75)
and of an assembler line (R77, R78). -/

namespace Sys2Proof

/-- The six fields of a command word, most significant first (30_encoding.md R71). -/
structure Fields where
  op  : BitVec 4
  rsv : BitVec 3
  k   : BitVec 1
  a   : BitVec 8
  b   : BitVec 8
  c   : BitVec 8
deriving DecidableEq, Repr

/-- The "must be 0" column of the opcode map (30_encoding.md R73): which fields of each opcode are
0, and which opcodes exist at all. A word is illegal (R75) exactly when its fields fail this. -/
def Fields.legal (f : Fields) : Bool :=
  f.rsv == 0 &&
  match f.op.toNat with
  | 1 => f.k == 0 && f.a == 0 && f.b == 0
  | 2 => f.k == 0 && f.a == 0 && f.b == 0
  | 3 => f.k == 0 && f.a == 0 && f.b == 0 && f.c == 0
  | 4 => f.k == 0 && f.a == 0 && f.b == 0
  | 5 => f.a == 0 && f.b == 0 && f.c == 0
  | 6 => f.k == 0 && !f.a.getLsbD 7
  | 7 => f.k == 0 && !f.a.getLsbD 7
  | 8 => f.k == 0 && !f.a.getLsbD 7
  | _ => false

/-- The fields a command is written with (30_encoding.md R71 to R73). -/
def Instr.fields : Instr → Fields
  | .init rate => ⟨1, 0, 0, 0, 0, rate⟩
  | .start sla => ⟨2, 0, 0, 0, 0, sla⟩
  | .stop => ⟨3, 0, 0, 0, 0, 0⟩
  | .write byte => ⟨4, 0, 0, 0, 0, byte⟩
  | .read ack => ⟨5, 0, BitVec.ofBool ack, 0, 0, 0⟩
  | .wrbuf dev sub len => ⟨6, 0, 0, dev.setWidth 8, sub, len⟩
  | .wrsingle dev sub byte => ⟨7, 0, 0, dev.setWidth 8, sub, byte⟩
  | .rdbuf dev sub len => ⟨8, 0, 0, dev.setWidth 8, sub, len⟩

/-- A command is well formed when the fields it is written with are legal. The operand types already
hold every operand to its width, so every `Instr` is (`Sys2Proof.Laws.Legal`). -/
def Instr.wellFormed (i : Instr) : Bool := i.fields.legal

/-- One assembler line (30_encoding.md R77) or pseudo-instruction (R78), its operands numbers as
they are typed, not yet held to any width. -/
inductive Asm where
  | init (rate : Nat)
  | configure (rate : Nat)
  | start (sla : Nat)
  | startW (dev : Nat)
  | startR (dev : Nat)
  | stop
  | write (byte : Nat)
  | writeByte (byte : Nat)
  | read (ack : Bool)
  | readByte (ack : Bool)
  | wrbuf (dev sub len : Nat)
  | writeBuffer (dev sub len : Nat)
  | wrsingle (dev sub byte : Nat)
  | writeSingle (dev sub byte : Nat)
  | rdbuf (dev sub len : Nat)
  | readBuffer (dev sub len : Nat)
deriving DecidableEq, Repr

/-- "The assembler refuses `dev` > 0x7F and any operand > 0xFF" (30_encoding.md R77). -/
def Asm.wellFormed : Asm → Bool
  | .init n | .configure n | .start n | .write n | .writeByte n => n ≤ 0xFF
  | .startW dev | .startR dev => dev ≤ 0x7F
  | .stop | .read _ | .readByte _ => true
  | .wrbuf dev sub x | .writeBuffer dev sub x | .wrsingle dev sub x | .writeSingle dev sub x
  | .rdbuf dev sub x | .readBuffer dev sub x => dev ≤ 0x7F && sub ≤ 0xFF && x ≤ 0xFF

end Sys2Proof
end

