-- ==== Sys2Proof/Decode.lean ====
section
/-! DEFINITION. The decoder of a command word (spec 30_encoding.md R74), total on every 32-bit word;
then the encoder and the assembler, written from the same tables (R71, R73, R77, R78). -/

namespace Sys2Proof

/-- The fields of a word (30_encoding.md R71): OP[31:28] RSV[27:25] K[24] A[23:16] B[15:8] C[7:0]. -/
def Fields.ofWord (w : Word) : Fields where
  op  := w.extractLsb' 28 4
  rsv := w.extractLsb' 25 3
  k   := w.extractLsb' 24 1
  a   := w.extractLsb' 16 8
  b   := w.extractLsb' 8 8
  c   := w.extractLsb' 0 8

/-- The word of six fields (30_encoding.md R71). -/
def Fields.toWord (f : Fields) : Word :=
  f.op ++ f.rsv ++ f.k ++ f.a ++ f.b ++ f.c

/-- `Decode` on the fields of a word (30_encoding.md R74). `none` is Illegal (R75). -/
def Fields.decode (f : Fields) : Option Instr :=
  if f.rsv ≠ 0 then none
  else match f.op.toNat with
    | 1 => if f.k = 0 ∧ f.a = 0 ∧ f.b = 0 then some (.init f.c) else none
    | 2 => if f.k = 0 ∧ f.a = 0 ∧ f.b = 0 then some (.start f.c) else none
    | 3 => if f.k = 0 ∧ f.a = 0 ∧ f.b = 0 ∧ f.c = 0 then some .stop else none
    | 4 => if f.k = 0 ∧ f.a = 0 ∧ f.b = 0 then some (.write f.c) else none
    | 5 => if f.a = 0 ∧ f.b = 0 ∧ f.c = 0 then some (.read (f.k == 1)) else none
    | 6 => if f.k = 0 ∧ f.a.getLsbD 7 = false then some (.wrbuf (f.a.setWidth 7) f.b f.c) else none
    | 7 => if f.k = 0 ∧ f.a.getLsbD 7 = false then some (.wrsingle (f.a.setWidth 7) f.b f.c) else none
    | 8 => if f.k = 0 ∧ f.a.getLsbD 7 = false then some (.rdbuf (f.a.setWidth 7) f.b f.c) else none
    | _ => none

/-- `Decode(w)` (30_encoding.md R74), total on every word. -/
def decode (w : Word) : Option Instr := (Fields.ofWord w).decode

/-- The command word of a command (30_encoding.md R73, R77). -/
def encode (i : Instr) : Word := i.fields.toWord

/-- The one command an assembler line stands for, its operands cut to their fields (30_encoding.md
R77, R78); `START_W dev` is `START SLA(dev, 0)` and `START_R dev` is `START SLA(dev, 1)`. -/
def Asm.toInstr : Asm → Instr
  | .init n | .configure n => .init (BitVec.ofNat 8 n)
  | .start n => .start (BitVec.ofNat 8 n)
  | .startW dev => .start (BitVec.ofNat 8 (dev * 2))
  | .startR dev => .start (BitVec.ofNat 8 (dev * 2 + 1))
  | .stop => .stop
  | .write n | .writeByte n => .write (BitVec.ofNat 8 n)
  | .read ack | .readByte ack => .read ack
  | .wrbuf d s l | .writeBuffer d s l => .wrbuf (BitVec.ofNat 7 d) (BitVec.ofNat 8 s) (BitVec.ofNat 8 l)
  | .wrsingle d s x | .writeSingle d s x => .wrsingle (BitVec.ofNat 7 d) (BitVec.ofNat 8 s) (BitVec.ofNat 8 x)
  | .rdbuf d s l | .readBuffer d s l => .rdbuf (BitVec.ofNat 7 d) (BitVec.ofNat 8 s) (BitVec.ofNat 8 l)

/-- The assembler (30_encoding.md R77): refuses a line with an operand out of range, else gives its
one word. -/
def assemble (x : Asm) : Option Word :=
  if x.wellFormed then some (encode x.toInstr) else none

/-- The command of an opcode-table row whose bits are `w`. A command is one 32-bit word delivered
whole (30_encoding.md R70), so no byte order applies; bits of `w` at `nbits` and above are 0. -/
def decodeTableWord (nbits w : Nat) : Option Instr :=
  decode (BitVec.ofNat 32 (w % 2 ^ nbits))

end Sys2Proof
end

