-- ==== Sys2Proof/Config.lean ====
section
/-! DEFINITION. What an implementation fixes (spec 00_scope.md R7) and the values the spec leaves
free (10_state.md R42, 41_phase_primitives.md R122). -/

namespace Sys2Proof

/-- `RATE_UNIT_HZ` (00_scope.md R7). -/
def Config.rateUnitHz : Nat := 100000

/-- `OVERHEAD`, the `-8` term (00_scope.md R7). -/
def Config.overhead : Nat := 8

/-- The size of the buffer memory space, 2 ^ `BUF_ADDR_WIDTH` (00_scope.md R7, 20_memory.md R50). -/
def Config.bufSpace : Nat := 65536

/-- What a byte of buffer memory that nothing has written reads as. DESIGN CHOICE, unsafe: log 5. -/
def Config.unlistedByte : Byte := 0

/-- A range of buffer addresses at which the platform refuses reads, writes or both
(20_memory.md R51 to R53). -/
structure Hole where
  base : Nat
  size : Nat
  denyRead : Bool
  denyWrite : Bool
deriving DecidableEq, Repr

/-- The bus statuses by name, a closed set (10_state.md R29). Their bytes are `BusStatus.code` in
Machine/Flags.lean; every other byte is OTHER. -/
inductive BusStatus where
  | startSent | rstartSent | slaWAck | slaWNack | dataTxAck | dataTxNack | arbLost | slaRAck
  | slaRNack | dataRxAck | dataRxNack | noInfo | busError
deriving DecidableEq, Repr

/-- The parameters the spec marks OPEN, which "a model takes" as an argument (00_scope.md R7), and the
platform's decision on each buffer access (20_memory.md R51). No step changes them. -/
structure Platform where
  /-- `SYS_CLK_HZ`, 1 to 2^32 - 1 (R7, 92 D9). -/
  sysClkHz : Nat
  /-- `POLL_LIMIT`: `none`, or `some L` with L ≥ 1 (R7, 92 D19). -/
  pollLimit : Option Nat
  /-- `START_ACCEPT`: the statuses START takes for "start condition sent", a set of bus statuses
  (R7, 92 D14). -/
  startAccept : List BusStatus
  /-- `REG_BASE`: the platform address of the host register block (R7, 20_memory.md R56; log 8). -/
  regBase : Nat
  /-- Where the platform's memory refuses the block's accesses. -/
  holes : List Hole
deriving DecidableEq, Repr

/-- The ranges 00_scope.md R7 gives its OPEN parameters: `SYS_CLK_HZ` from 1 to 2^32 - 1, and a poll
limit of at least 1. -/
abbrev Platform.InRange (p : Platform) : Prop :=
  1 ≤ p.sysClkHz ∧ p.sysClkHz ≤ 4294967295 ∧ ∀ l ∈ p.pollLimit, 1 ≤ l

/-- One answer of BusEnv to one poll (41_phase_primitives.md R121, R122): not yet, or done with a
bus status and, for a receive, a data byte. -/
inductive BusAnswer where
  | notYet
  | done (status data : Byte)
deriving DecidableEq, Repr, Inhabited

/-- `SYS_CLK_HZ - 1` of the machine after reset: a free value, the spec gives none (92 D9; log 7). -/
opaque Config.sysClkLessOne : Fin 4294967295

/-- BusEnv's answers that no script of the state names: a free value per draw
(41_phase_primitives.md R122; log 2). -/
opaque Config.busAnswer : Nat → BusAnswer

/-- What an unspecified register gives when it is read: a free value per draw (10_state.md R42;
log 4). -/
opaque Config.freeWord : Nat → Word

/-- Which of the values a raced byte of the buffer held an access gets, where no script of the state says:
a free value per draw (20_memory.md R61; log 19). -/
opaque Config.racePick : Nat → Nat

/-- The platform of the machine after reset: `SYS_CLK_HZ` free, `POLL_LIMIT` and `START_ACCEPT` at
the defaults of 00_scope.md R7 (START_SENT and RSTART_SENT), `REG_BASE` 0, and no refused access
(logs 6 to 8). -/
def Config.platform : Platform where
  sysClkHz := Config.sysClkLessOne.val + 1
  pollLimit := none
  startAccept := [.startSent, .rstartSent]
  regBase := 0
  holes := []

end Sys2Proof
end

