-- ==== Sys2Proof/Machine/State.lean ====
section
/-! DEFINITION. The machine's state, plain data: the registers of spec 10_state.md R20, the latched
command of R37, the platform's buffer memory (20_memory.md R51), and the two agents around the block,
BusEnv and the host (00_scope.md R6), as the inputs they will give. -/

namespace Sys2Proof.Machine

/-- PHASE, the protocol state (10_state.md R25). All eight codes are used. -/
inductive Phase where
  | idle | started | addressAcked | writing | repeatedStart | addressAckedRead | reading | stopped
deriving DecidableEq, Repr

/-- The Status Code of RESULT (10_state.md R27). Value 7 is never written, so it has no name. -/
inductive StatusCode where
  | ok | prescalerAttached | slowerThanRequested | slaveAddressNotAcknowledging
  | slaveDataNotAcknowledging | badStart | timeout
deriving DecidableEq, Repr

/-- FCAUSE (60_exceptions.md R202). Codes 8 to 15 are never written, so they have no names. -/
inductive Cause where
  | none | illegal | busy | notConfigured | zeroRate | busNotHeld | bufRange | bufAccess
deriving DecidableEq, Repr

/-- A bus operation, issued to the transceiver (41_phase_primitives.md R120). -/
inductive BusOp where
  | startCond
  | stopCond
  | tx (b : Byte)
  | rx (ack : Bool)
deriving DecidableEq, Repr

/-- A point in the pseudocode of a running command: the Sequencer's position (10_state.md R21) is the
list of points still to come. A `…Poll` point stands inside the loop of `Await`
(41_phase_primitives.md R121). -/
inductive Task where
  /-- The body of INIT up to DIV, PS and `st` (40_clock_configurator.md R101). -/
  | config (rate : BitVec 8)
  /-- The end of INIT, `CONFIGURED <- 1` (40_clock_configurator.md R101). -/
  | configured
  /-- The call of `PrimStart(sla)` (41_phase_primitives.md R125). -/
  | start (sla : Byte)
  /-- `PrimStart`, waiting for its `StartCond`. -/
  | startPoll (sla : Byte)
  /-- `PrimStart`, waiting for its `Tx(sla)`. -/
  | addrPoll (sla : Byte)
  /-- `PrimStart`, its `Tx(sla)` done: the check of its status, then PHASE. -/
  | addrDone (sla : Byte)
  /-- The call of `PrimStop()` (41_phase_primitives.md R130). -/
  | stop
  /-- `PrimStop`, waiting for its `StopCond`. -/
  | stopPoll
  /-- The call of `PrimWrite(b)` (41_phase_primitives.md R136). -/
  | write (b : Byte)
  /-- `PrimWrite`, waiting for its `Tx(b)`. -/
  | writePoll (b : Byte)
  /-- `PrimWrite`, its `Tx(b)` done: the check of its status, then PHASE. -/
  | writeDone
  /-- The call of `PrimRead(k)` (41_phase_primitives.md R141). -/
  | read (ack : Bool)
  /-- `PrimRead`, waiting for its `Rx(k)`. -/
  | readPoll (ack : Bool)
  /-- `PrimRead`, its `Rx(k)` done: PHASE. -/
  | readDone
  /-- The end of READ: RDATA, or RESULT when the receive expired (41_phase_primitives.md R141). -/
  | readEnd
  /-- The head of WRBUF's byte loop (42_buffered_operations.md R162). -/
  | sendLoop
  /-- The end of WRBUF's byte loop body, `IDX <- IDX + 1` (42_buffered_operations.md R162). -/
  | sendNext
  /-- The head of RDBUF's byte loop (42_buffered_operations.md R172). -/
  | recvLoop
  /-- RDBUF after `PrimRead`: store the byte, then check its status (42_buffered_operations.md R172). -/
  | store
  /-- `RESULT <- s`. -/
  | result
deriving DecidableEq, Repr

/-- The latched operands of the running command and its position (10_state.md R21, R37). While
BUSY = 0 the spec leaves them undefined and nothing reads them (log 10). -/
structure Run where
  /-- The latched opcode and operand fields. -/
  cmd : Instr
  /-- LBUF, the latched buffer base. -/
  lbuf : Addr
  /-- IDX, the byte index, 0 to 255. -/
  idx : Nat
  /-- NPOLL, the poll counter, a natural number without bound (30_encoding.md R81). -/
  npoll : Nat
  /-- The pseudocode's status `s`. -/
  st : StatusCode
  /-- The pseudocode's received byte `x`. -/
  rx : Byte
  /-- The position: what is still to be done, the next point first. -/
  todo : List Task
  /-- The bytes of the buffer that were overwritten while the command runs, by the host or, under RDBUF, by
  the block, each with the value it held before, the latest first: what a racing access may still get
  (20_memory.md R61; log 19). -/
  olds : List Host.Cell
deriving DecidableEq, Repr

/-- Which registers still have the unspecified contents of reset (10_state.md R42): a host read of
one is a free draw, and so is the BUFPTR a buffered command latches (70_reset_and_hazards.md R233).
The model's own field (log 4). -/
structure Unset where
  div : Bool
  ps : Bool
  result : Bool
  tws : Bool
  rdata : Bool
  bufptr : Bool
deriving DecidableEq, Repr

/-- One action of the host (00_scope.md R6): what it does in one step. -/
inductive HostAct where
  /-- Nothing; the block goes on by itself. -/
  | idle
  /-- Poll CTRLSTAT until BUSY = 0 (70_reset_and_hazards.md R232 step 4, R242). -/
  | waitIdle
  /-- A register read of `bytes` bytes at the platform address `addr` (20_memory.md R56, R57). -/
  | read (bytes addr : Nat)
  /-- A register write of `bytes` bytes at the platform address `addr`; at `REG_BASE` it issues the
  command `v`. -/
  | write (bytes addr : Nat) (v : Word)
  /-- The host reads a byte of the buffer memory it shares with the block (20_memory.md R61). -/
  | bufRead (a : Addr)
  /-- The host writes a byte of the buffer memory (20_memory.md R61). -/
  | bufWrite (a : Addr) (v : Byte)
  /-- The platform asserts reset (70_reset_and_hazards.md R230). -/
  | reset
deriving DecidableEq, Repr

/-- Buffer memory: the listed bytes by strictly rising address, none of them equal to what an
unlisted byte reads as (`Memory.Wf` in Machine/Ops.lean). -/
abbrev Memory := List Host.Cell

/-- The state of the machine. -/
structure State where
  /-- DIV, 8 bits (R22). -/
  div : BitVec 8
  /-- PS, 2 bits (R23). -/
  ps : BitVec 2
  /-- CONFIGURED (R34). -/
  configured : Bool
  /-- HELD (R24). -/
  held : Bool
  /-- PHASE, 3 bits (R25). -/
  phase : Phase
  /-- BUSY (R32). -/
  busy : Bool
  /-- FAULT, sticky (R33). -/
  fault : Bool
  /-- FCAUSE, 4 bits (R33). -/
  fcause : Cause
  /-- RESULT, 3 bits (R26). -/
  result : StatusCode
  /-- TWS, 8 bits (R28). -/
  tws : Byte
  /-- RDATA, 8 bits (R30). -/
  rdata : Byte
  /-- BUFPTR, 16 bits (R31). -/
  bufptr : Addr
  /-- STO_PEND, the transceiver's stop-pending flag (R35). -/
  stoPend : Bool
  /-- The latched command (R37). -/
  run : Run
  /-- The platform's buffer memory (20_memory.md R51). -/
  mem : Memory
  /-- The OPEN parameters and the platform's refusals; no step changes them (00_scope.md R7). -/
  platform : Platform
  /-- BusEnv: its answers to the coming polls, the next first; when none is left the answers are the
  free draws `Config.busAnswer` (41_phase_primitives.md R122; log 2). -/
  env : List BusAnswer
  /-- What the coming raced accesses to the buffer get: 0 for the byte as it stands, 1 and up for the values
  it held before, modulo their number; when none is left, the free draws `Config.racePick`
  (20_memory.md R61; log 19). -/
  picks : List Nat
  /-- The bus operations issued so far, oldest first: the recorded events of 41_phase_primitives.md
  R120 and R121. -/
  trace : List BusOp
  /-- Registers whose contents are still unspecified (R42; the model's own field, log 4). -/
  unset : Unset
  /-- The free values drawn so far (the model's own field, log 2). -/
  draws : Nat
  /-- The host: its coming actions, the next first; when none is left it is idle (log 3). -/
  host : List HostAct
  /-- What the host's last read returned (the model's own field, log 3). -/
  hostData : Word
  /-- How many pseudocode points of a running command one step takes (the model's own field: a choice
  of granularity, log 1). -/
  pace : Nat
deriving DecidableEq, Repr

/-- The machine never stops with a fault: the seven fault causes of the spec are states, entered by
`State.raise` (60_exceptions.md R203), with FAULT = 1 and FCAUSE set, so this type has no reasons. -/
inductive Fault where
deriving DecidableEq, Repr

/-- Why a step has no meaning. -/
inductive Refusal where
  /-- A command with no meaning yet, raised by an arm of `exec` alone; safe. No arm raises it. -/
  | notModelled (mnemonic : String)
  /-- A host register access that is not one aligned 32-bit word, raised by `hostTurn`: "the model
  gives it no meaning and it has no step" (20_memory.md R57); safe. -/
  | hostAccess (bytes off : Nat)
  /-- A host access below `REG_BASE`: it is not to this block, and what it reaches is another unit of the
  platform, of which the spec says nothing (20_memory.md R56; log 8). Raised by `hostTurn`; safe. -/
  | otherUnit (bytes addr : Nat)
deriving DecidableEq, Repr

/-- The latched command after reset: undefined in the spec (70_reset_and_hazards.md R230) and read by
no rule while BUSY = 0 (10_state.md R37). DESIGN CHOICE: log 10. -/
def Run.reset : Run where
  cmd := .stop
  lbuf := 0
  idx := 0
  npoll := 0
  st := .ok
  rx := 0
  todo := []
  olds := []

/-- The machine right after reset (10_state.md R42). The six registers R42 leaves unspecified hold 0
(RESULT holds Ok, coded 0) and are marked unset, so that no read gives that 0 (log 4). -/
def State.reset : State where
  div := 0
  ps := 0
  configured := false
  held := false
  phase := .idle
  busy := false
  fault := false
  fcause := .none
  result := .ok
  tws := 0
  rdata := 0
  bufptr := 0
  stoPend := false
  run := Run.reset
  mem := []
  platform := Config.platform
  env := []
  picks := []
  trace := []
  unset := ⟨true, true, true, true, true, true⟩
  draws := 0
  host := []
  hostData := 0
  pace := 4096

end Sys2Proof.Machine
end

