-- ==== Sys2Proof/Machine/Flags.lean ====
section
/-! DEFINITION. The numeric codes of the block's state (spec 10_state.md R25, R27, R29; 60_exceptions.md
R202), the status checks, and the flag updates of 10_state.md R39. -/

namespace Sys2Proof

/-- The byte of a bus status (10_state.md R29; log 11). -/
def BusStatus.code : BusStatus → Byte
  | .startSent => 0x08
  | .rstartSent => 0x10
  | .slaWAck => 0x18
  | .slaWNack => 0x20
  | .dataTxAck => 0x28
  | .dataTxNack => 0x30
  | .arbLost => 0x38
  | .slaRAck => 0x40
  | .slaRNack => 0x48
  | .dataRxAck => 0x50
  | .dataRxNack => 0x58
  | .noInfo => 0xF8
  | .busError => 0x00

/-- `START_ACCEPT` as the bytes the transceiver reports. No OTHER byte is among them. -/
def Platform.startBytes (p : Platform) : List Byte := p.startAccept.map BusStatus.code

end Sys2Proof

namespace Sys2Proof.Machine

/-- The 3-bit code of PHASE (10_state.md R25). -/
def Phase.code : Phase → BitVec 3
  | .idle => 0
  | .started => 1
  | .addressAcked => 2
  | .writing => 3
  | .repeatedStart => 4
  | .addressAckedRead => 5
  | .reading => 6
  | .stopped => 7

/-- The 3-bit code of RESULT (10_state.md R27). -/
def StatusCode.code : StatusCode → BitVec 3
  | .ok => 0
  | .prescalerAttached => 1
  | .slowerThanRequested => 2
  | .slaveAddressNotAcknowledging => 3
  | .slaveDataNotAcknowledging => 4
  | .badStart => 5
  | .timeout => 6

/-- The 4-bit code of FCAUSE (60_exceptions.md R202). -/
def Cause.code : Cause → BitVec 4
  | .none => 0
  | .illegal => 1
  | .busy => 2
  | .notConfigured => 3
  | .zeroRate => 4
  | .busNotHeld => 5
  | .bufRange => 6
  | .bufAccess => 7

/-! The bytes of the bus statuses by name; every other byte is OTHER (10_state.md R29). -/

def startSent : Byte := BusStatus.code .startSent
def rstartSent : Byte := BusStatus.code .rstartSent
def slaWAck : Byte := BusStatus.code .slaWAck
def dataTxAck : Byte := BusStatus.code .dataTxAck
def slaRAck : Byte := BusStatus.code .slaRAck
def dataRxAck : Byte := BusStatus.code .dataRxAck

/-- START's first check, `TWS in START_ACCEPT` (41_phase_primitives.md R126). -/
def State.startAccepted (s : State) : Bool := s.platform.startBytes.contains s.tws

/-- START's second check: an address acknowledged, for either direction (41_phase_primitives.md R126). -/
def State.addrAcked (s : State) : Bool := s.tws == slaWAck || s.tws == slaRAck

/-- WRITE's check, DATA_TX_ACK alone (41_phase_primitives.md R136, R137). -/
def State.dataAcked (s : State) : Bool := s.tws == dataTxAck

/-- RDBUF's check after a byte that is not the last (42_buffered_operations.md R172). -/
def State.rxAcked (s : State) : Bool := s.tws == dataRxAck

/-- PHASE after an acknowledged address, by the direction bit of `sla` (41_phase_primitives.md R125). -/
def addrPhase (sla : Byte) : Phase := if sla.getLsbD 0 then .addressAckedRead else .addressAcked

/-- `PrimStart`'s first three lines (41_phase_primitives.md R125): STO_PEND is cleared, PHASE says
whether the bus was free or held, HELD is set. -/
def State.claimBus (s : State) : State :=
  { s with
    stoPend := false
    phase := if s.held then .repeatedStart else .started
    held := true }

/-- A completed stop releases the bus (41_phase_primitives.md R130). -/
def State.releaseBus (s : State) : State := { s with held := false, phase := .stopped }

/-- `PHASE <- p`. -/
def State.enterPhase (p : Phase) (s : State) : State := { s with phase := p }

end Sys2Proof.Machine
end

