-- ==== Sys2Proof/Machine/Operands.lean ====
section
/-! DEFINITION. Operand assembly: the address byte (spec 00_scope.md R12), the effective address and
the length of a buffer (20_memory.md R51, R54), the acknowledge policy (42_buffered_operations.md R171). -/

namespace Sys2Proof.Machine

/-- `SLA(a, d)`, the 7-bit device address followed by the direction bit (00_scope.md R12). -/
def sla (dev : BitVec 7) (d : Bool) : Byte := dev ++ BitVec.ofBool d

/-- The byte count of a command: field C of WRBUF and RDBUF (30_encoding.md R72); the other commands
have none. -/
def cmdLen : Instr → Nat
  | .wrbuf _ _ len => len.toNat
  | .rdbuf _ _ len => len.toNat
  | .init _ | .start _ | .stop | .write _ | .read _ | .wrsingle _ _ _ => 0

/-- `len` of the running command (10_state.md R37). -/
def Run.len (r : Run) : Nat := cmdLen r.cmd

/-- The command writes the buffer (RDBUF alone, 20_memory.md R50). -/
def fillsBuffer : Instr → Bool
  | .rdbuf _ _ _ => true
  | .init _ | .start _ | .stop | .write _ | .read _ | .wrbuf _ _ _ | .wrsingle _ _ _ => false

/-- The address lies in the running command's buffer `[LBUF, LBUF + len)` (20_memory.md R51). Only WRBUF and
RDBUF have one: for the other commands `len` is 0. -/
def Run.inBuffer (r : Run) (a : Nat) : Bool := r.lbuf.toNat ≤ a && a < r.lbuf.toNat + r.len

/-- The values the byte at `a` held before, while the command runs (20_memory.md R61). -/
def Run.earlier (r : Run) (a : Nat) : List Byte := (r.olds.filter fun c => c.1 == a).map Prod.snd

/-- The address of buffer byte IDX, `LBUF + IDX` (20_memory.md R54), as a plain number: acceptance
keeps it below 65 536 (R51). -/
def Run.addr (r : Run) : Nat := r.lbuf.toNat + r.idx

/-- `IDX = len - 1` in RDBUF's loop, where `IDX < len` (42_buffered_operations.md R172). -/
def Run.atLast (r : Run) : Bool := r.idx + 1 == r.len

/-- What RDBUF answers a byte with: NACK for the last, ACK for every other (42_buffered_operations.md
R171). -/
def Run.ackNext (r : Run) : Bool := !r.atLast

end Sys2Proof.Machine
end

