-- ==== Sys2Proof/Machine/Ops.lean ====
section
/-! DEFINITION. The named operations over registers, buffer memory and the bus port; entering the fault
state (spec 60_exceptions.md R203), and reset, the only way out of it (R205). -/

namespace Sys2Proof.Machine

/-! ## Buffer memory (20_memory.md R51 to R54) -/

/-- The canonical form: addresses strictly rising, inside the buffer space, and no listed byte equal
to what an unlisted one reads as. -/
abbrev Memory.Wf (m : Memory) : Prop :=
  m.Pairwise (fun x y => x.1 < y.1) ∧ ∀ c ∈ m, c.1 < Config.bufSpace ∧ c.2 ≠ Config.unlistedByte

/-- The byte at an address. -/
def Memory.read : Memory → Nat → Byte
  | [], _ => Config.unlistedByte
  | (k, w) :: m, a => if k = a then w else Memory.read m a

/-- `m` with the byte `v` listed in front, unless an unlisted byte reads as `v`. -/
def Memory.cons (a : Nat) (v : Byte) (m : Memory) : Memory :=
  if v = Config.unlistedByte then m else (a, v) :: m

/-- Memory after the byte at `a` became `v`. -/
def Memory.write : Memory → Nat → Byte → Memory
  | [], a, v => Memory.cons a v []
  | (k, w) :: m, a, v =>
    if a < k then Memory.cons a v ((k, w) :: m)
    else if a = k then Memory.cons a v m
    else (k, w) :: Memory.write m a v

/-- The address lies in the range. -/
def holeCovers (h : Hole) (a : Nat) : Bool := h.base ≤ a && a < h.base + h.size

/-- The platform admits the block's read of `a` (20_memory.md R51, R52). No address at 65 536 or above
exists (R50). -/
def State.admitsRead (s : State) (a : Nat) : Bool :=
  a < Config.bufSpace && !(s.platform.holes.any fun h => holeCovers h a && h.denyRead)

/-- The platform admits the block's write of `a` (20_memory.md R51, R53). -/
def State.admitsWrite (s : State) (a : Nat) : Bool :=
  a < Config.bufSpace && !(s.platform.holes.any fun h => holeCovers h a && h.denyWrite)

/-- Which value the next raced access gets. -/
def State.pick (s : State) : Nat :=
  match s.picks with
  | n :: _ => n
  | [] => Config.racePick s.draws

/-- The state after that choice. -/
def State.picked (s : State) : State :=
  match s.picks with
  | _ :: rest => { s with picks := rest }
  | [] => { s with draws := s.draws + 1 }

/-- The byte at `a` as an access in a race gets it (20_memory.md R61): the byte there where nothing has
overwritten it while the command runs; else that byte or one it held before, a free choice. -/
def State.racedByte (a : Nat) (s : State) : Byte × State :=
  match s.run.earlier a with
  | [] => (s.mem.read a, s)
  | old :: olds =>
    ((s.mem.read a :: old :: olds).getD (s.pick % (olds.length + 2)) (s.mem.read a), s.picked)

/-- The byte at `a` is about to be overwritten while the command runs. -/
def State.noteOld (a : Nat) (s : State) : State :=
  { s with run := { s.run with olds := (a, s.mem.read a) :: s.run.olds } }

/-- `MemRead(a, 1)` (20_memory.md R52): the byte and the state after it, or `none` where the platform
refuses. -/
def State.memRead (a : Nat) (s : State) : Option (Byte × State) :=
  if s.admitsRead a then some (s.racedByte a) else none

/-- `MemWrite(a, 1, v)` (20_memory.md R53): the state after it, or `none` where the platform refuses. -/
def State.memWrite (a : Nat) (v : Byte) (s : State) : Option State :=
  if s.admitsWrite a then some { s with mem := s.mem.write a v } else none

/-! ## Registers (10_state.md R20). Writing a register makes its contents specified (R42). -/

/-- INIT's clock configuration, DIV and PS (10_state.md R22, R23). -/
def State.setClock (d : BitVec 8) (p : BitVec 2) (s : State) : State :=
  { s with div := d, ps := p, unset := { s.unset with div := false, ps := false } }

/-- `RESULT <- c` (10_state.md R26). -/
def State.setResult (c : StatusCode) (s : State) : State :=
  { s with result := c, unset := { s.unset with result := false } }

/-- `TWS <- v` (10_state.md R28). -/
def State.setTws (v : Byte) (s : State) : State :=
  { s with tws := v, unset := { s.unset with tws := false } }

/-- `RDATA <- v` (10_state.md R30). -/
def State.setRdata (v : Byte) (s : State) : State :=
  { s with rdata := v, unset := { s.unset with rdata := false } }

/-- `CONFIGURED <- 1` (10_state.md R34). -/
def State.markConfigured (s : State) : State := { s with configured := true }

/-- `BUFPTR <- v`, by the host (10_state.md R31). -/
def State.setBufptr (v : Addr) (s : State) : State :=
  { s with bufptr := v, unset := { s.unset with bufptr := false } }

/-- Bits `lo` up to `lo + w - 1` of the next free value: an unspecified register field is drawn at its
place in its host register word. -/
def State.freeField (lo w : Nat) (s : State) : BitVec w := (Config.freeWord s.draws).extractLsb' lo w

/-- One more free value has been drawn. -/
def State.drawn (s : State) : State := { s with draws := s.draws + 1 }

/-- The value a buffered command latches from BUFPTR: its contents, or a free draw while they are
unspecified (10_state.md R42, 70_reset_and_hazards.md R233). -/
def State.bufptrNow (s : State) : Addr := if s.unset.bufptr then s.freeField 0 16 else s.bufptr

/-- The state after BUFPTR was read: a draw is used up if its contents were unspecified. -/
def State.bufptrRead (s : State) : State := if s.unset.bufptr then s.drawn else s

/-! ## The position in the running command (10_state.md R21, R37) -/

/-- What is left to do. -/
def State.setTodo (ts : List Task) (s : State) : State := { s with run := { s.run with todo := ts } }

/-- The pseudocode's `s <- c`. -/
def State.setStatus (c : StatusCode) (s : State) : State := { s with run := { s.run with st := c } }

/-- The pseudocode's received byte, `x <- v`. -/
def State.setRx (v : Byte) (s : State) : State := { s with run := { s.run with rx := v } }

/-- `IDX <- IDX + 1`. -/
def State.bumpIdx (s : State) : State := { s with run := { s.run with idx := s.run.idx + 1 } }

/-! ## The bus port (41_phase_primitives.md R120 to R123) -/

/-- The opening of `Await(op)`: the operation reaches BusEnv, one recorded event; a `StopCond` sets
STO_PEND; `NPOLL <- 0` (41_phase_primitives.md R121). -/
def State.issue (op : BusOp) (s : State) : State :=
  { s with
    trace := s.trace ++ [op]
    stoPend := if op = .stopCond then true else s.stoPend
    run := { s.run with npoll := 0 } }

/-- BusEnv's answer to the next poll. -/
def State.answer (s : State) : BusAnswer :=
  match s.env with
  | a :: _ => a
  | [] => Config.busAnswer s.draws

/-- The state after BusEnv has answered. -/
def State.answered (s : State) : State :=
  match s.env with
  | _ :: rest => { s with env := rest }
  | [] => s.drawn

/-- What one turn of `Await`'s loop comes to: not done yet, given up, or done with a data byte. -/
inductive Polled where
  | pending
  | expired
  | done (data : Byte)
deriving DecidableEq, Repr

/-- `NPOLL <- NPOLL + 1`. -/
def State.countPoll (s : State) : State := { s with run := { s.run with npoll := s.run.npoll + 1 } }

/-- A poll answered NotYet: NPOLL counts it, and `POLL_LIMIT` may end the wait
(41_phase_primitives.md R121). -/
def State.notYet (s : State) : Polled × State :=
  match s.platform.pollLimit with
  | none => (.pending, s.countPoll)
  | some l => if l ≤ s.countPoll.run.npoll then (.expired, s.countPoll) else (.pending, s.countPoll)

/-- One poll of a `StartCond`, `Tx` or `Rx`: `Done` writes TWS (41_phase_primitives.md R121). -/
def State.poll (s : State) : Polled × State :=
  match s.answer with
  | .notYet => s.answered.notYet
  | .done status data => (.done data, s.answered.setTws status)

/-- STO_PEND is cleared. -/
def State.clearStop (s : State) : State := { s with stoPend := false }

/-- BusEnv's move before a poll of a `StopCond`: it clears STO_PEND or leaves it
(41_phase_primitives.md R123; 10_state.md R35). -/
def State.stopMove (s : State) : State :=
  match s.answer with
  | .notYet => s.answered
  | .done _ _ => s.answered.clearStop

/-- One poll of a `StopCond`: it reads STO_PEND, and writes no TWS (41_phase_primitives.md R121,
R123). -/
def State.pollStop (s : State) : Polled × State :=
  if s.stopMove.stoPend then s.stopMove.notYet else (.done 0, s.stopMove)

/-! ## Faults and reset -/

/-- `raise Fault(c)` (60_exceptions.md R203): the first cause since reset is kept; F_BUF_ACCESS ends the
running body at once, with BUSY cleared and RESULT not written. -/
def State.raise (c : Cause) (s : State) : State :=
  let t := if s.fault then s else { s with fault := true, fcause := c }
  if c = .bufAccess then { t with busy := false, run := { t.run with todo := [] } } else t

/-- Reset, a platform signal, and the only way out of the fault state (60_exceptions.md R205,
70_reset_and_hazards.md R230): every register takes its value of 10_state.md R42, the running command
is abandoned, and no bus operation is issued. The buffer memory, the platform, BusEnv, the host and the
record of events are not the block's registers, and stay. -/
def State.resetBlock (s : State) : State :=
  { State.reset with
    mem := s.mem
    platform := s.platform
    env := s.env
    picks := s.picks
    trace := s.trace
    draws := s.draws
    host := s.host
    hostData := s.hostData
    pace := s.pace }

end Sys2Proof.Machine
end

