-- ==== Sys2Proof/Machine/Sequencer.lean ====
section
/-! DEFINITION. The Sequencer: what each point of a command's pseudocode does (spec
40_clock_configurator.md R101, 41_phase_primitives.md R125 to R141, 42_buffered_operations.md R162 to R172),
and running a command (20_memory.md R60). Each `…Step rest s` is one point, with `rest` still to do after it. -/

namespace Sys2Proof.Machine

/-! ## The clock configurator -/

/-- The prescaler search (40_clock_configurator.md R101, R105, R106): `n` prescalers are left, `v` is
the divisor so far and `k` the selector it stands for. -/
def prescale : Nat → Nat → Nat → BitVec 8 × BitVec 2 × StatusCode
  | 0, _, _ => (255, 3, .slowerThanRequested)
  | n + 1, v, k =>
    if v / 4 ≤ 255 then (BitVec.ofNat 8 (v / 4), BitVec.ofNat 2 (k + 1), .prescalerAttached)
    else prescale n (v / 4) (k + 1)

/-- DIV, PS and the status INIT computes from `SYS_CLK_HZ` and the rate (40_clock_configurator.md R101,
R102), on exact integers: `raw` may be negative. -/
def clockSetting (sysClkHz rate : Nat) : BitVec 8 × BitVec 2 × StatusCode :=
  let q := sysClkHz / 2 / (rate * Config.rateUnitHz)
  let raw : Int := (q : Int) - (Config.overhead : Int)
  if raw < 0 then (0, 0, .slowerThanRequested)
  else if raw ≤ 255 then (BitVec.ofNat 8 raw.toNat, 0, .ok)
  else prescale 3 raw.toNat 0

/-- The body of INIT up to its last two lines (40_clock_configurator.md R101): DIV, PS and the status that
RESULT takes. -/
def State.configStep (rate : BitVec 8) (rest : List Task) (s : State) : State :=
  let c := clockSetting s.platform.sysClkHz rate.toNat
  ((s.setClock c.1 c.2.1).setStatus c.2.2).setTodo rest

/-- The end of INIT (40_clock_configurator.md R101). -/
def State.configuredStep (rest : List Task) (s : State) : State := s.markConfigured.setTodo rest

/-! ## The phase primitives -/

/-- `return c`, ending a primitive with a status that is not Ok. -/
def State.fail (c : StatusCode) (rest : List Task) (s : State) : State :=
  (s.setStatus c).setTodo rest

/-- A primitive that is called only while `s = Ok` (42_buffered_operations.md R180). -/
def State.whenOk (rest : List Task) (s : State) (body : State) : State :=
  if s.run.st = .ok then body else s.setTodo rest

/-- `PrimStart(sla)` up to its first `Await` (41_phase_primitives.md R125, R127). -/
def State.startStep (sla : Byte) (rest : List Task) (s : State) : State :=
  s.whenOk rest <| (s.claimBus.issue .startCond).setTodo (.startPoll sla :: rest)

/-- `PrimStart(sla)`, one poll of its `StartCond`, and what follows it (41_phase_primitives.md R125,
R126). -/
def State.startPollStep (sla : Byte) (rest : List Task) (s : State) : State :=
  match s.poll with
  | (.pending, t) => t
  | (.expired, t) => t.fail .timeout rest
  | (.done _, t) =>
    if t.startAccepted then (t.issue (.tx sla)).setTodo (.addrPoll sla :: rest)
    else t.fail .badStart rest

/-- `PrimStart(sla)`, one poll of its `Tx(sla)` (41_phase_primitives.md R125). -/
def State.addrPollStep (sla : Byte) (rest : List Task) (s : State) : State :=
  match s.poll with
  | (.pending, t) => t
  | (.expired, t) => t.fail .timeout rest
  | (.done _, t) => t.setTodo (.addrDone sla :: rest)

/-- `PrimStart(sla)` after its `Tx(sla)` (41_phase_primitives.md R125, R126). -/
def State.addrDoneStep (sla : Byte) (rest : List Task) (s : State) : State :=
  if s.addrAcked then (s.enterPhase (addrPhase sla)).setTodo rest
  else s.fail .slaveAddressNotAcknowledging rest

/-- `PrimStop()` up to its `Await`: no bus action at all when the bus is not held
(41_phase_primitives.md R130). -/
def State.stopStep (rest : List Task) (s : State) : State :=
  if s.held then (s.issue .stopCond).setTodo (.stopPoll :: rest) else s.setTodo rest

/-- `PrimStop()`, one poll of its `StopCond`: an expired stop changes neither HELD nor PHASE and
reports no status (41_phase_primitives.md R130, R132). -/
def State.stopPollStep (rest : List Task) (s : State) : State :=
  match s.pollStop with
  | (.pending, t) => t
  | (.expired, t) => t.setTodo rest
  | (.done _, t) => t.releaseBus.setTodo rest

/-- `PrimWrite(b)` up to its `Await` (41_phase_primitives.md R136). -/
def State.writeStep (b : Byte) (rest : List Task) (s : State) : State :=
  s.whenOk rest <| (s.issue (.tx b)).setTodo (.writePoll b :: rest)

/-- `PrimWrite(b)`, one poll of its `Tx(b)` (41_phase_primitives.md R136). -/
def State.writePollStep (rest : List Task) (s : State) : State :=
  match s.poll with
  | (.pending, t) => t
  | (.expired, t) => t.fail .timeout rest
  | (.done _, t) => t.setTodo (.writeDone :: rest)

/-- `PrimWrite(b)` after its `Tx(b)` (41_phase_primitives.md R136, R137). -/
def State.writeDoneStep (rest : List Task) (s : State) : State :=
  if s.dataAcked then (s.enterPhase .writing).setTodo rest
  else s.fail .slaveDataNotAcknowledging rest

/-- `PrimRead(k)` up to its `Await` (41_phase_primitives.md R141). -/
def State.readStep (ack : Bool) (rest : List Task) (s : State) : State :=
  s.whenOk rest <| (s.issue (.rx ack)).setTodo (.readPoll ack :: rest)

/-- `PrimRead(k)`, one poll of its `Rx(k)`: the byte is returned whatever its status
(41_phase_primitives.md R141, R142). An expired receive is the status Timeout. -/
def State.readPollStep (rest : List Task) (s : State) : State :=
  match s.poll with
  | (.pending, t) => t
  | (.expired, t) => t.fail .timeout rest
  | (.done x, t) => (t.setRx x).setTodo (.readDone :: rest)

/-- `PrimRead(k)` after its `Rx(k)`, whatever its status (41_phase_primitives.md R141). -/
def State.readDoneStep (rest : List Task) (s : State) : State := (s.enterPhase .reading).setTodo rest

/-- The end of READ: RDATA, or RESULT = Timeout when the receive expired (41_phase_primitives.md
R141). -/
def State.readEndStep (rest : List Task) (s : State) : State :=
  (if s.run.st = .ok then s.setRdata s.run.rx else s.setResult .timeout).setTodo rest

/-! ## The byte loops of the buffered operations -/

/-- The head of WRBUF's loop (42_buffered_operations.md R162): read the next byte of the buffer, then
`PrimWrite` it. A refused read is F_BUF_ACCESS (20_memory.md R52). -/
def State.sendLoopStep (rest : List Task) (s : State) : State :=
  if s.run.st = .ok ∧ s.run.idx < s.run.len then
    match s.memRead s.run.addr with
    | some (b, t) => t.setTodo (.write b :: .sendNext :: rest)
    | none => s.raise .bufAccess
  else s.setTodo rest

/-- The end of WRBUF's loop body (42_buffered_operations.md R162). -/
def State.sendNextStep (rest : List Task) (s : State) : State :=
  s.bumpIdx.setTodo (.sendLoop :: rest)

/-- The head of RDBUF's loop (42_buffered_operations.md R171, R172). -/
def State.recvLoopStep (rest : List Task) (s : State) : State :=
  if s.run.st = .ok ∧ s.run.idx < s.run.len then
    s.setTodo (.read s.run.ackNext :: .store :: .recvLoop :: rest)
  else s.setTodo rest

/-- RDBUF after `PrimRead` (42_buffered_operations.md R172): nothing more if it expired; else the byte
is stored, and only then is the status of a byte that is not the last checked. A refused write is
F_BUF_ACCESS and has no effect (20_memory.md R53). A racing host read may still get the byte's old value
(R61). -/
def State.storeStep (rest : List Task) (s : State) : State :=
  s.whenOk rest <|
    match (s.noteOld s.run.addr).memWrite s.run.addr s.run.rx with
    | some t =>
      let u := if !s.run.atLast && !s.rxAcked then t.setStatus .slaveDataNotAcknowledging else t
      u.bumpIdx.setTodo rest
    | none => s.raise .bufAccess

/-- `RESULT <- s`. -/
def State.resultStep (rest : List Task) (s : State) : State := (s.setResult s.run.st).setTodo rest

/-! ## Running a command -/

/-- What one point does. -/
def State.taskStep (t : Task) (rest : List Task) (s : State) : State :=
  match t with
  | .config rate => s.configStep rate rest
  | .configured => s.configuredStep rest
  | .start a => s.startStep a rest
  | .startPoll a => s.startPollStep a rest
  | .addrPoll a => s.addrPollStep a rest
  | .addrDone a => s.addrDoneStep a rest
  | .stop => s.stopStep rest
  | .stopPoll => s.stopPollStep rest
  | .write b => s.writeStep b rest
  | .writePoll _ => s.writePollStep rest
  | .writeDone => s.writeDoneStep rest
  | .read ack => s.readStep ack rest
  | .readPoll _ => s.readPollStep rest
  | .readDone => s.readDoneStep rest
  | .readEnd => s.readEndStep rest
  | .sendLoop => s.sendLoopStep rest
  | .sendNext => s.sendNextStep rest
  | .recvLoop => s.recvLoopStep rest
  | .store => s.storeStep rest
  | .result => s.resultStep rest

/-- One point of the running command; when nothing is left its body has ended and `BUSY <- 0`
(60_exceptions.md R201). -/
def State.micro (s : State) : State :=
  match s.run.todo with
  | [] => { s with busy := false }
  | t :: rest => s.taskStep t rest

/-- The block left to itself for `n` points: it does nothing while BUSY = 0
(70_reset_and_hazards.md R231). -/
def State.runBlock : Nat → State → State
  | 0, s => s
  | n + 1, s => if s.busy then State.runBlock n s.micro else s

/-- One step in which the host does nothing: `pace` points, and at least one. -/
def State.idleTurn (s : State) : State := s.runBlock (max 1 s.pace)

/-! ## Acceptance (60_exceptions.md R200, R201) -/

/-- The first two checks of `Accept`: a faulted block drops the command, a busy one raises F_BUSY and
goes on with the command it runs. -/
def State.screen (s : State) (k : State → State) : State :=
  if s.fault then s else if s.busy then s.raise .busy else k s

/-- Every command but INIT needs CONFIGURED = 1. -/
def State.whenConfigured (s : State) (k : State → State) : State :=
  if s.configured then k s else s.raise .notConfigured

/-- WRITE and READ need HELD = 1. -/
def State.whenHeld (s : State) (k : State → State) : State :=
  if s.held then k s else s.raise .busNotHeld

/-- WRBUF and RDBUF latch `LBUF <- BUFPTR` and need `LBUF + len ≤ 65536`. -/
def State.withBuffer (len : BitVec 8) (s : State) (k : State → State) : State :=
  if s.bufptrNow.toNat + len.toNat ≤ Config.bufSpace then
    k { s.bufptrRead with run := { s.run with lbuf := s.bufptrNow } }
  else s.bufptrRead.raise .bufRange

/-- Latch the operands and set BUSY, with the body's points still to do. -/
def State.latch (cmd : Instr) (body : List Task) (s : State) : State :=
  { s with busy := true, run := { s.run with cmd := cmd, idx := 0, st := .ok, todo := body, olds := [] } }

/-- An accepted command: it is latched, and the block takes as many of its points as a step holds. -/
def State.launch (cmd : Instr) (body : List Task) (s : State) : State :=
  (s.latch cmd body).runBlock s.pace

end Sys2Proof.Machine
end

