-- ==== Sys2Proof/Machine/Buffered.lean ====
section
/-! DEFINITION. The buffered operations WRBUF, WRSINGLE and RDBUF (spec 42_buffered_operations.md). -/

namespace Sys2Proof.Machine

/-- The opening of every buffered command: the defensive stop, `PrimStart` in the write direction, and
the sub-address (42_buffered_operations.md R162, R166, R172). -/
def openWrite (dev : BitVec 7) (sub : Byte) : List Task :=
  [.stop, .start (sla dev false), .write sub]

/-- The end of every buffered command: the cleanup stop on every path, then `RESULT <- s`. -/
def closeBus : List Task := [.stop, .result]

/-- WRBUF (42_buffered_operations.md R162). -/
def execWrbuf (dev : BitVec 7) (sub len : BitVec 8) (s : State) : Host.Outcome State Fault Refusal :=
  .next <| s.screen fun s => s.whenConfigured fun s => s.withBuffer len fun s =>
    s.launch (.wrbuf dev sub len) (openWrite dev sub ++ [.sendLoop] ++ closeBus)

/-- WRSINGLE (42_buffered_operations.md R166): no buffer, so no range check. -/
def execWrsingle (dev : BitVec 7) (sub byte : BitVec 8) (s : State) : Host.Outcome State Fault Refusal :=
  .next <| s.screen fun s => s.whenConfigured fun s =>
    s.launch (.wrsingle dev sub byte) (openWrite dev sub ++ [.write byte] ++ closeBus)

/-- RDBUF (42_buffered_operations.md R172): the repeated start in the read direction, then the bytes. -/
def execRdbuf (dev : BitVec 7) (sub len : BitVec 8) (s : State) : Host.Outcome State Fault Refusal :=
  .next <| s.screen fun s => s.whenConfigured fun s => s.withBuffer len fun s =>
    s.launch (.rdbuf dev sub len)
      (openWrite dev sub ++ [.start (sla dev true), .recvLoop] ++ closeBus)

end Sys2Proof.Machine
end

