-- ==== Sys2Proof/Machine/Configurator.lean ====
section
/-! DEFINITION. The Clock Configurator's command, INIT (spec 40_clock_configurator.md). -/

namespace Sys2Proof.Machine

/-- INIT (40_clock_configurator.md R101; 60_exceptions.md R201): exempt from F_NOT_CONFIGURED;
rate 0 is F_ZERO_RATE. -/
def execInit (rate : BitVec 8) (s : State) : Host.Outcome State Fault Refusal :=
  .next <| s.screen fun s =>
    if rate = 0 then s.raise .zeroRate else s.launch (.init rate) [.config rate, .result, .configured]

end Sys2Proof.Machine
end

