-- ==== Sys2Proof/Machine/Primitives.lean ====
section
/-! DEFINITION. The phase primitives as commands: START, STOP, WRITE and READ (spec
41_phase_primitives.md). -/

namespace Sys2Proof.Machine

/-- START (41_phase_primitives.md R125): `RESULT <- PrimStart(sla)`. -/
def execStart (a : BitVec 8) (s : State) : Host.Outcome State Fault Refusal :=
  .next <| s.screen fun s => s.whenConfigured fun s => s.launch (.start a) [.start a, .result]

/-- STOP (41_phase_primitives.md R130): `PrimStop()`, no status. -/
def execStop (s : State) : Host.Outcome State Fault Refusal :=
  .next <| s.screen fun s => s.whenConfigured fun s => s.launch .stop [.stop]

/-- WRITE (41_phase_primitives.md R136): `RESULT <- PrimWrite(byte)`, and F_BUS_NOT_HELD when the bus
is not held. -/
def execWrite (byte : BitVec 8) (s : State) : Host.Outcome State Fault Refusal :=
  .next <| s.screen fun s => s.whenConfigured fun s => s.whenHeld fun s =>
    s.launch (.write byte) [.write byte, .result]

/-- READ (41_phase_primitives.md R141): `RDATA <- PrimRead(ack)`, RESULT only on Timeout, and
F_BUS_NOT_HELD when the bus is not held. -/
def execRead (ack : Bool) (s : State) : Host.Outcome State Fault Refusal :=
  .next <| s.screen fun s => s.whenConfigured fun s => s.whenHeld fun s =>
    s.launch (.read ack) [.read ack, .readEnd]

end Sys2Proof.Machine
end

