-- ==== Sys2Proof/Machine/Dispatch.lean ====
section
/-! DEFINITION. The one dispatch on the command: one arm per constructor, each a direct call of the
command's meaning. -/

namespace Sys2Proof.Machine

def exec (i : Instr) (s : State) : Host.Outcome State Fault Refusal :=
  match i with
  | .init rate => Sys2Proof.Machine.execInit rate s
  | .start a => Sys2Proof.Machine.execStart a s
  | .stop => Sys2Proof.Machine.execStop s
  | .write byte => Sys2Proof.Machine.execWrite byte s
  | .read ack => Sys2Proof.Machine.execRead ack s
  | .wrbuf dev sub len => Sys2Proof.Machine.execWrbuf dev sub len s
  | .wrsingle dev sub byte => Sys2Proof.Machine.execWrsingle dev sub byte s
  | .rdbuf dev sub len => Sys2Proof.Machine.execRdbuf dev sub len s

end Sys2Proof.Machine
end

