-- ==== Sys2Proof/Machine/HostPort.lean ====
section
/-! DEFINITION. The host register port (spec 20_memory.md R56 to R58): what a register reads as, what a
write does, the acceptance of a command word (60_exceptions.md R200, R201), and one action of the host. -/

namespace Sys2Proof.Machine

/-- CTRLSTAT (20_memory.md R56): [0] BUSY, [1] FAULT, [2] CONFIGURED, [3] HELD, [6:4] PHASE, [7] 0,
[11:8] FCAUSE, [31:12] 0. -/
def State.ctrlstat (s : State) : Word :=
  (0 : BitVec 20) ++ s.fcause.code ++ (0 : BitVec 1) ++ s.phase.code ++ BitVec.ofBool s.held ++
    BitVec.ofBool s.configured ++ BitVec.ofBool s.fault ++ BitVec.ofBool s.busy

/-- A register field at bit `lo` of its word: its contents, or the free value of this read while they
are unspecified (10_state.md R42). -/
def State.orFree {w : Nat} (s : State) (unset : Bool) (lo : Nat) (v : BitVec w) : BitVec w :=
  if unset then s.freeField lo w else v

/-- What a host read of the word at `off` returns (20_memory.md R56, R58). -/
def State.hostView (s : State) (off : Nat) : Word :=
  match off with
  | 0x04 => s.bufptrNow.setWidth 32
  | 0x08 => s.ctrlstat
  | 0x0C => (s.orFree s.unset.result 0 s.result.code).setWidth 32
  | 0x10 => (s.orFree s.unset.rdata 0 s.rdata).setWidth 32
  | 0x14 => ((s.orFree s.unset.ps 8 s.ps) ++ (s.orFree s.unset.div 0 s.div)).setWidth 32
  | 0x18 => (s.orFree s.unset.tws 0 s.tws).setWidth 32
  | _ => 0

/-- The word at `off` holds a register whose contents are unspecified (10_state.md R42). -/
def State.viewIsFree (s : State) (off : Nat) : Bool :=
  match off with
  | 0x04 => s.unset.bufptr
  | 0x0C => s.unset.result
  | 0x10 => s.unset.rdata
  | 0x14 => s.unset.ps || s.unset.div
  | 0x18 => s.unset.tws
  | _ => false

/-- A host read: it has no side effect on the block (20_memory.md R58); a free value it used is not
given again (10_state.md R42). -/
def State.hostRead (off : Nat) (s : State) : State :=
  { (if s.viewIsFree off then s.drawn else s) with hostData := s.hostView off }

/-- A host write at an offset other than CMD: BUFPTR takes the low 16 bits, every other register and
every undecoded offset ignores it (20_memory.md R56, R58). -/
def State.hostWrite (off : Nat) (v : Word) (s : State) : State :=
  if off = 0x04 then s.setBufptr (v.setWidth 16) else s

/-- `Accept(w)` (60_exceptions.md R201), for a host write of `w` to CMD: an illegal word is F_ILLEGAL,
after the FAULT and BUSY checks; a legal one goes to its command, which makes those two checks itself. -/
def accept (w : Word) (s : State) : Host.Outcome State Fault Refusal :=
  match decode w with
  | none => .next (s.screen fun s => s.raise .illegal)
  | some i => exec i s

/-- A register access the port carries: one whole word at a multiple of 4 (20_memory.md R57). -/
def wordAccess (bytes off : Nat) : Bool := bytes == 4 && off % 4 == 0

/-- The offset of a platform address in the register block at `REG_BASE`, if it is not below it
(20_memory.md R56). -/
def State.regOffset (s : State) (addr : Nat) : Option Nat :=
  if s.platform.regBase ≤ addr then some (addr - s.platform.regBase) else none

/-- A host register access at `addr`: what `k` does with its offset, if the port carries it (20_memory.md
R57). -/
def State.regAccess (bytes addr : Nat) (s : State) (k : Nat → Host.Outcome State Fault Refusal) :
    Host.Outcome State Fault Refusal :=
  match s.regOffset addr with
  | some off => if wordAccess bytes off then k off else .refused (.hostAccess bytes off)
  | none => .refused (.otherUnit bytes addr)

/-- The host reads a byte of the shared buffer memory. While RDBUF runs, a byte that was overwritten since it
was accepted gives the value as it stands or one from before (20_memory.md R61). -/
def State.hostBufRead (a : Nat) (s : State) : State :=
  let r := if s.busy && fillsBuffer s.run.cmd then s.racedByte a else (s.mem.read a, s)
  { r.2 with hostData := r.1.setWidth 32 }

/-- The host writes a byte of the shared buffer memory. In the buffer of a running command the write races:
the block's read under WRBUF, and a host read under RDBUF, may still get the value before it (20_memory.md
R61). -/
def State.hostBufWrite (a : Nat) (v : Byte) (s : State) : State :=
  let t := if s.busy && s.run.inBuffer a then s.noteOld a else s
  { t with mem := s.mem.write a v }

/-- One action of the host, with `rest` its later ones. -/
def hostTurn (a : HostAct) (rest : List HostAct) (s : State) : Host.Outcome State Fault Refusal :=
  let t := { s with host := rest }
  match a with
  | .idle => .next t.idleTurn
  | .waitIdle =>
    if s.busy then .next { s with hostData := s.ctrlstat }.idleTurn
    else .next { t with hostData := s.ctrlstat }
  | .read bytes addr => t.regAccess bytes addr fun off => .next (t.hostRead off)
  | .write bytes addr v =>
    t.regAccess bytes addr fun off => if off = 0 then accept v t else .next (t.hostWrite off v)
  | .bufRead a => .next (t.hostBufRead a.toNat)
  | .bufWrite a v => .next (t.hostBufWrite a.toNat v)
  | .reset => .next t.resetBlock

end Sys2Proof.Machine
end

