-- ==== Sys2Proof/Machine/Step.lean ====
section
/-! DEFINITION. One step of the machine: the host's next action, or, when it has none, the block alone
(spec 00_scope.md R6; 70_reset_and_hazards.md R231). -/

namespace Sys2Proof.Machine

/-- One step. A command that is issued is `exec` of the command its word decodes to (`accept`). -/
def step (s : State) : Host.Outcome State Fault Refusal :=
  match s.host with
  | [] => .next s.idleTurn
  | a :: rest => hostTurn a rest s

/-- `s` with a host write of the command word to CMD as the next action: commands reach the block in no
other way (10_state.md R21). -/
def State.withFetchWord (s : State) (nbits w : Nat) : State :=
  { s with host := .write 4 s.platform.regBase (BitVec.ofNat 32 (w % 2 ^ nbits)) :: s.host }

end Sys2Proof.Machine
end

