-- ==== Sys2Proof/Safety.lean ====
section
/-! DEFINITION. The terms claims are made in: when a command is accepted, what a well-behaved
transceiver answers, and the invariants of the machine (spec 10_state.md R38; 60_exceptions.md R201). -/

namespace Sys2Proof.Machine

/-! ## Acceptance -/

/-- No fault is recorded and no command runs: the first two checks of `Accept` pass (60_exceptions.md
R201). -/
abbrev State.Ready (s : State) : Prop := s.fault = false ∧ s.busy = false

/-- `Ready`, and CONFIGURED = 1: what START and STOP need. -/
abbrev State.Accepting (s : State) : Prop := s.Ready ∧ s.configured = true

/-- The check of `Accept` that refuses a decoded command, if one does: the checks after Illegal, in the
order of 60_exceptions.md R201. -/
def refusedBy (i : Instr) (s : State) : Option Cause :=
  match i with
  | .init rate => if rate = 0 then some .zeroRate else none
  | .start _ | .stop | .wrsingle _ _ _ => if s.configured then none else some .notConfigured
  | .write _ | .read _ =>
    if s.configured then (if s.held then none else some .busNotHeld) else some .notConfigured
  | .wrbuf _ _ len | .rdbuf _ _ len =>
    if s.configured then
      (if 65536 < s.bufptrNow.toNat + len.toNat then some .bufRange else none)
    else some .notConfigured

/-- The points of a command's body, in order. -/
def commandBody : Instr → List Task
  | .init rate => [.config rate, .result, .configured]
  | .start a => [.start a, .result]
  | .stop => [.stop]
  | .write b => [.write b, .result]
  | .read ack => [.read ack, .readEnd]
  | .wrbuf dev sub _ => [.stop, .start (sla dev false), .write sub, .sendLoop, .stop, .result]
  | .wrsingle dev sub b =>
    [.stop, .start (sla dev false), .write sub, .write b, .stop, .result]
  | .rdbuf dev sub _ =>
    [.stop, .start (sla dev false), .write sub, .start (sla dev true), .recvLoop, .stop, .result]

/-- A buffered command (42_buffered_operations.md): WRBUF, WRSINGLE or RDBUF. -/
def buffered : Instr → Bool
  | .wrbuf _ _ _ | .wrsingle _ _ _ | .rdbuf _ _ _ => true
  | .init _ | .start _ | .stop | .write _ | .read _ => false

/-! ## What the transceiver answers -/

/-- `n` polls answered NotYet and then one answered Done: how long an operation takes is BusEnv's choice
(41_phase_primitives.md R122). -/
def replies (n : Nat) (status data : Byte) (rest : List BusAnswer) : List BusAnswer :=
  List.replicate n .notYet ++ .done status data :: rest

/-- The wait of `n` polls does not reach the poll limit (41_phase_primitives.md R121). -/
abbrev waitAllowed (p : Platform) (n : Nat) : Prop := ∀ l ∈ p.pollLimit, n < l

/-- The address statuses START accepts (41_phase_primitives.md R126). -/
abbrev ackedAddress (status : Byte) : Prop := status = slaWAck ∨ status = slaRAck

/-- What BusEnv answers one bus operation with: `polls` times NotYet, then Done (41_phase_primitives.md
R121, R122). -/
structure Reply where
  polls : Nat
  status : Byte
  data : Byte
deriving DecidableEq, Repr

/-- The answers that are these replies, one after the other, and then `rest`. -/
def repliesTo (rs : List Reply) (rest : List BusAnswer) : List BusAnswer :=
  rs.foldr (fun r more => replies r.polls r.status r.data more) rest

/-- How many of the polls these replies answer with NotYet. -/
def pollCount (rs : List Reply) : Nat := (rs.map Reply.polls).sum

/-- BusEnv's coming answers are these replies and then `rest`, and no wait reaches the poll limit. -/
abbrev State.Hears (s : State) (rs : List Reply) (rest : List BusAnswer) : Prop :=
  s.env = repliesTo rs rest ∧ ∀ r ∈ rs, waitAllowed s.platform r.polls

/-- The replies to a buffered command up to its cleanup stop: `x` to the defensive stop, which is issued
only if the bus is held, and `rs` to the operations after it. -/
def approach (held : Bool) (x : Reply) (rs : List Reply) : List Reply := (if held then [x] else []) ++ rs

/-- The replies to a whole buffered command: `y` is the one to the cleanup stop. -/
def transaction (held : Bool) (x y : Reply) (rs : List Reply) : List Reply :=
  approach held x rs ++ [y]

/-- The start, the address byte and the sub-address of a buffered command pass their checks
(41_phase_primitives.md R126, R136). -/
abbrev Opens (p : Platform) (r1 r2 r3 : Reply) : Prop :=
  r1.status ∈ p.startBytes ∧ ackedAddress r2.status ∧ r3.status = dataTxAck

/-- RDBUF's repeated start and read address pass their checks (41_phase_primitives.md R126). -/
abbrev Turns (p : Platform) (r4 r5 : Reply) : Prop :=
  r4.status ∈ p.startBytes ∧ ackedAddress r5.status

/-- The buffer a command names lies in the buffer space, and the platform admits every access to it; a
command without a buffer asks for nothing (20_memory.md R51). -/
abbrev State.BufferUsable (s : State) : Instr → Prop
  | .wrbuf _ _ len => s.unset.bufptr = false ∧ s.bufptr.toNat + len.toNat ≤ 65536 ∧
      ∀ k < len.toNat, s.admitsRead (s.bufptr.toNat + k) = true
  | .rdbuf _ _ len => s.unset.bufptr = false ∧ s.bufptr.toNat + len.toNat ≤ 65536 ∧
      ∀ k < len.toNat, s.admitsWrite (s.bufptr.toNat + k) = true
  | .init _ | .start _ | .stop | .write _ | .read _ | .wrsingle _ _ _ => True

/-- The bus operations of a buffered command between its two stops, while every check passes, each with
the statuses that pass its check (42_buffered_operations.md R162, R166, R172). -/
def busPlan (s : State) : Instr → List (BusOp × List Byte)
  | .wrbuf dev sub len =>
    [(.startCond, s.platform.startBytes), (.tx (sla dev false), [slaWAck, slaRAck]),
      (.tx sub, [dataTxAck])] ++
      (List.range len.toNat).map fun k => (.tx (s.mem.read (s.bufptr.toNat + k)), [dataTxAck])
  | .wrsingle dev sub b =>
    [(.startCond, s.platform.startBytes), (.tx (sla dev false), [slaWAck, slaRAck]),
      (.tx sub, [dataTxAck]), (.tx b, [dataTxAck])]
  | .rdbuf dev sub len =>
    [(.startCond, s.platform.startBytes), (.tx (sla dev false), [slaWAck, slaRAck]),
      (.tx sub, [dataTxAck]), (.startCond, s.platform.startBytes),
      (.tx (sla dev true), [slaWAck, slaRAck])] ++
      (List.range len.toNat).map fun k => (.rx (decide (k + 1 ≠ len.toNat)), [dataRxAck])
  | .init _ | .start _ | .stop | .write _ | .read _ => []

/-- `t` is `s` after a buffered command that ended with the bus released: `ops` are its bus operations
between the two stops, and `m` is the memory it leaves. Everything not named here is as in `s`, but for
the latched operands. -/
def Transacted (s t : State) (res : StatusCode) (tws : Byte) (ops : List BusOp) (m : Memory)
    (rest : List BusAnswer) : Prop :=
  t = { s with
    held := false
    phase := .stopped
    stoPend := false
    result := res
    tws := tws
    mem := m
    trace := s.trace ++ ((if s.held then [.stopCond] else []) ++ ops ++ [.stopCond])
    env := rest
    unset := { s.unset with result := false, tws := false }
    run := t.run }

/-! ## The clock configuration as a table -/

/-- The thresholds of 40_clock_configurator.md R108. -/
def clockTable (raw : Int) : BitVec 8 × BitVec 2 × StatusCode :=
  if raw < 0 then (0, 0, .slowerThanRequested)
  else if raw ≤ 255 then (BitVec.ofInt 8 raw, 0, .ok)
  else if raw ≤ 1023 then (BitVec.ofInt 8 (raw / 4), 1, .prescalerAttached)
  else if raw ≤ 4095 then (BitVec.ofInt 8 (raw / 16), 2, .prescalerAttached)
  else if raw ≤ 16383 then (BitVec.ofInt 8 (raw / 64), 3, .prescalerAttached)
  else (255, 3, .slowerThanRequested)

/-- `raw` of 40_clock_configurator.md R102, for the clock `f` and the rate `rate`. -/
def rawDivisor (f rate : Nat) : Int := ((f / 2 / (rate * 100000) : Nat) : Int) - 8

/-! ## Invariants -/

/-- HELD = 0 if and only if PHASE is Idle or Stopped (10_state.md R38). -/
abbrev State.HeldPhase (s : State) : Prop :=
  s.held = false ↔ (s.phase = .idle ∨ s.phase = .stopped)

/-- FAULT = 0 if and only if FCAUSE holds no cause (60_exceptions.md R202, R203). -/
abbrev State.FaultCaused (s : State) : Prop := s.fault = false ↔ s.fcause = .none

/-- The buffer of a running command lies in the buffer space (20_memory.md R51). -/
abbrev State.BufferFits (s : State) : Prop :=
  s.busy = true → s.run.lbuf.toNat + s.run.len ≤ Config.bufSpace

/-- The point stands inside the `Await` of a start, a write or a read. -/
def Task.waiting : Task → Bool
  | .startPoll _ | .addrPoll _ | .writePoll _ | .readPoll _ => true
  | .config _ | .configured | .start _ | .addrDone _ | .stop | .stopPoll | .write _ | .writeDone
  | .read _ | .readDone | .readEnd | .sendLoop | .sendNext | .recvLoop | .store | .result => false

/-- Points that are only ever the one at hand, and only while the status is Ok: those inside a start, a
write or a read (in its `Await`, or after it and before its end), and INIT's computation. -/
def Task.onlyAtHand : Task → Bool
  | .config _ | .startPoll _ | .addrPoll _ | .addrDone _ | .writePoll _ | .writeDone | .readPoll _
  | .readDone => true
  | .configured | .start _ | .stop | .stopPoll | .write _ | .read _ | .readEnd | .sendLoop
  | .sendNext | .recvLoop | .store | .result => false

/-- While every status is Ok, the points that transfer a byte or an address come only where the bus is
held: `held` says whether it is before the first point. -/
def heldPlan : Bool → List Task → Bool
  | _, [] => true
  | held, t :: ts =>
    match t with
    | .start _ => heldPlan true ts
    | .startPoll _ | .addrPoll _ | .addrDone _ => held && heldPlan true ts
    | .stop => heldPlan false ts
    | .stopPoll => heldPlan false ts
    | .write _ | .writePoll _ | .writeDone | .read _ | .readPoll _ | .readDone | .sendLoop
    | .sendNext | .recvLoop => held && heldPlan held ts
    | .config _ | .configured | .readEnd | .store | .result => heldPlan held ts

/-- What is still to be done by a running command fits HELD: only the point at hand can be `onlyAtHand`, it
is not once a status has failed, and until then the plan respects HELD. -/
abbrev State.PlanFits (s : State) : Prop :=
  s.busy = true →
    (s.run.todo.tail.all fun t => !t.onlyAtHand) = true ∧
    (s.run.st ≠ .ok → (s.run.todo.all fun t => !t.onlyAtHand) = true) ∧
    (s.run.st = .ok → heldPlan s.held s.run.todo = true)

/-- The invariant of the machine. -/
abbrev State.Inv (s : State) : Prop :=
  s.HeldPhase ∧ s.FaultCaused ∧ s.mem.Wf ∧ s.BufferFits ∧ s.PlanFits

end Sys2Proof.Machine
end

