-- ==== Sys2Proof/Certificates/Slice0/Obligations.lean ====
section
/-! DEFINITION. The statements for the provers, each a formal reading of rules of spec/ (OBLIGATIONS.json
names the rules, and the witnesses are in Sys2Proof/Tests/Slice0.lean). -/

open Sys2Proof Sys2Proof.Machine

/-! ## Encoding (30_encoding.md) -/

/-- Decoding the word of any command gives that command back, with every operand at every value. -/
def Obligations.DecodeOfEncode : Prop :=
  ∀ i : Instr, decode (encode i) = some i

/-- No two words stand for one command: a word that decodes is the word of the command it decodes to. -/
def Obligations.EncodeOfDecode : Prop :=
  ∀ (w : Word) (i : Instr), decode w = some i → encode i = w

/-- R73: a word selects a row of the opcode map exactly by its mask and match, and then gives the row's
command with the operands cut from their fields; a word that selects no row is no command. -/
def Obligations.DecodeFollowsOpcodeMap : Prop :=
  ∀ w : Word,
    (decode w = some (.init (w.extractLsb' 0 8)) ↔ w &&& 0xFFFFFF00#32 = 0x10000000#32) ∧
    (decode w = some (.start (w.extractLsb' 0 8)) ↔ w &&& 0xFFFFFF00#32 = 0x20000000#32) ∧
    (decode w = some .stop ↔ w &&& 0xFFFFFFFF#32 = 0x30000000#32) ∧
    (decode w = some (.write (w.extractLsb' 0 8)) ↔ w &&& 0xFFFFFF00#32 = 0x40000000#32) ∧
    (decode w = some (.read (w.getLsbD 24)) ↔ w &&& 0xFEFFFFFF#32 = 0x50000000#32) ∧
    (decode w = some (.wrbuf (w.extractLsb' 16 7) (w.extractLsb' 8 8) (w.extractLsb' 0 8)) ↔
      w &&& 0xFF800000#32 = 0x60000000#32) ∧
    (decode w = some (.wrsingle (w.extractLsb' 16 7) (w.extractLsb' 8 8) (w.extractLsb' 0 8)) ↔
      w &&& 0xFF800000#32 = 0x70000000#32) ∧
    (decode w = some (.rdbuf (w.extractLsb' 16 7) (w.extractLsb' 8 8) (w.extractLsb' 0 8)) ↔
      w &&& 0xFF800000#32 = 0x80000000#32) ∧
    (decode w = none ↔
      ¬ w &&& 0xFFFFFF00#32 = 0x10000000#32 ∧ ¬ w &&& 0xFFFFFF00#32 = 0x20000000#32 ∧
      ¬ w &&& 0xFFFFFFFF#32 = 0x30000000#32 ∧ ¬ w &&& 0xFFFFFF00#32 = 0x40000000#32 ∧
      ¬ w &&& 0xFEFFFFFF#32 = 0x50000000#32 ∧ ¬ w &&& 0xFF800000#32 = 0x60000000#32 ∧
      ¬ w &&& 0xFF800000#32 = 0x70000000#32 ∧ ¬ w &&& 0xFF800000#32 = 0x80000000#32)

/-- R75: the illegal words, by their fields, and what writing one to CMD does to a block that is neither
faulted nor busy: F_ILLEGAL and nothing else. -/
def Obligations.IllegalWordsFault : Prop :=
  (∀ w : Word, decode w = none ↔
    (w.extractLsb' 28 4 = 0 ∨ 9 ≤ (w.extractLsb' 28 4).toNat) ∨
    w.extractLsb' 25 3 ≠ 0 ∨
    ((w.extractLsb' 28 4 = 1 ∨ w.extractLsb' 28 4 = 2 ∨ w.extractLsb' 28 4 = 4) ∧
      (w.getLsbD 24 = true ∨ w.extractLsb' 16 8 ≠ 0 ∨ w.extractLsb' 8 8 ≠ 0)) ∨
    (w.extractLsb' 28 4 = 3 ∧
      (w.getLsbD 24 = true ∨ w.extractLsb' 16 8 ≠ 0 ∨ w.extractLsb' 8 8 ≠ 0 ∨
        w.extractLsb' 0 8 ≠ 0)) ∨
    (w.extractLsb' 28 4 = 5 ∧
      (w.extractLsb' 16 8 ≠ 0 ∨ w.extractLsb' 8 8 ≠ 0 ∨ w.extractLsb' 0 8 ≠ 0)) ∨
    ((w.extractLsb' 28 4 = 6 ∨ w.extractLsb' 28 4 = 7 ∨ w.extractLsb' 28 4 = 8) ∧
      (w.getLsbD 24 = true ∨ w.getLsbD 23 = true))) ∧
  ∀ (s : State) (rest : List HostAct) (w : Word), s.host = .write 4 s.platform.regBase w :: rest → s.Ready →
    decode w = none →
    step s = .next { s with host := rest, fault := true, fcause := .illegal }

/-- R79: the worked encodings, each line assembled to its word and each word decoded to its command; the
four illegal words decode to none. -/
def Obligations.SpecEncodings : Prop :=
  (assemble (.init 1) = some 0x10000001 ∧ assemble (.init 4) = some 0x10000004 ∧
    assemble (.start 0xA0) = some 0x200000A0 ∧ assemble (.start 0xA1) = some 0x200000A1 ∧
    assemble .stop = some 0x30000000 ∧ assemble (.write 0x10) = some 0x40000010 ∧
    assemble (.read true) = some 0x51000000 ∧ assemble (.read false) = some 0x50000000 ∧
    assemble (.wrbuf 0x50 0x00 3) = some 0x60500003 ∧
    assemble (.wrsingle 0x50 0x10 0xAB) = some 0x705010AB ∧
    assemble (.rdbuf 0x50 0x10 2) = some 0x80501002) ∧
  decode 0x10000001 = some (.init 1) ∧ decode 0x10000004 = some (.init 4) ∧
  decode 0x200000A0 = some (.start 0xA0) ∧ decode 0x200000A1 = some (.start 0xA1) ∧
  decode 0x30000000 = some .stop ∧ decode 0x40000010 = some (.write 0x10) ∧
  decode 0x51000000 = some (.read true) ∧ decode 0x50000000 = some (.read false) ∧
  decode 0x60500003 = some (.wrbuf 0x50 0x00 3) ∧
  decode 0x705010AB = some (.wrsingle 0x50 0x10 0xAB) ∧
  decode 0x80501002 = some (.rdbuf 0x50 0x10 2) ∧
  decode 0x00000000 = none ∧ decode 0x30000001 = none ∧ decode 0x60D00003 = none ∧
  decode 0x12000001 = none

/-- R77: what each form of the assembler assembles to, and which lines it refuses. -/
def Obligations.AssemblerForms : Prop :=
  (∀ n, n ≤ 0xFF →
    assemble (.init n) = some (0x10000000#32 ||| BitVec.ofNat 32 n) ∧
    assemble (.start n) = some (0x20000000#32 ||| BitVec.ofNat 32 n) ∧
    assemble (.write n) = some (0x40000000#32 ||| BitVec.ofNat 32 n)) ∧
  assemble .stop = some 0x30000000#32 ∧
  assemble (.read true) = some 0x51000000#32 ∧ assemble (.read false) = some 0x50000000#32 ∧
  (∀ dev sub x, dev ≤ 0x7F → sub ≤ 0xFF → x ≤ 0xFF →
    assemble (.wrbuf dev sub x) = some (0x60000000#32 ||| BitVec.ofNat 32 dev <<< 16 |||
      BitVec.ofNat 32 sub <<< 8 ||| BitVec.ofNat 32 x) ∧
    assemble (.wrsingle dev sub x) = some (0x70000000#32 ||| BitVec.ofNat 32 dev <<< 16 |||
      BitVec.ofNat 32 sub <<< 8 ||| BitVec.ofNat 32 x) ∧
    assemble (.rdbuf dev sub x) = some (0x80000000#32 ||| BitVec.ofNat 32 dev <<< 16 |||
      BitVec.ofNat 32 sub <<< 8 ||| BitVec.ofNat 32 x)) ∧
  (∀ n, 0xFF < n →
    assemble (.init n) = none ∧ assemble (.start n) = none ∧ assemble (.write n) = none) ∧
  (∀ dev sub x, (0x7F < dev ∨ 0xFF < sub ∨ 0xFF < x) →
    assemble (.wrbuf dev sub x) = none ∧ assemble (.wrsingle dev sub x) = none ∧
    assemble (.rdbuf dev sub x) = none)

/-- R78: every pseudo-instruction assembles to exactly one command, the one it is an alias of. -/
def Obligations.AliasesAssemble : Prop :=
  (∀ n, assemble (.configure n) = assemble (.init n) ∧
    assemble (.writeByte n) = assemble (.write n)) ∧
  (∀ ack, assemble (.readByte ack) = assemble (.read ack)) ∧
  (∀ dev sub x, assemble (.writeBuffer dev sub x) = assemble (.wrbuf dev sub x) ∧
    assemble (.writeSingle dev sub x) = assemble (.wrsingle dev sub x) ∧
    assemble (.readBuffer dev sub x) = assemble (.rdbuf dev sub x)) ∧
  (∀ dev : BitVec 7,
    assemble (.startW dev.toNat) = assemble (.start (sla dev false).toNat) ∧
    assemble (.startR dev.toNat) = assemble (.start (sla dev true).toNat) ∧
    assemble (.startW dev.toNat) = some (0x20000000#32 ||| dev.setWidth 32 <<< 1) ∧
    assemble (.startR dev.toNat) = some (0x20000000#32 ||| dev.setWidth 32 <<< 1 ||| 1#32))

/-! ## Operands and memory (00_scope.md, 20_memory.md) -/

/-- R12: the address byte, as bits and as a number; write is direction 0 and read is direction 1. -/
def Obligations.AddressByte : Prop :=
  ∀ (dev : BitVec 7) (d : Bool),
    (sla dev d).extractLsb' 1 7 = dev ∧ (sla dev d).getLsbD 0 = d ∧
    (sla dev d).toNat = dev.toNat * 2 + d.toNat

/-- R52: `MemRead` of an admitted address is the byte there, where nothing has overwritten it while the
command runs (for a byte in a race see `HostSharesTheBuffer`); where WRBUF's loop meets a refused one, the
Sequencer enters F_BUF_ACCESS and the command stops at that point. -/
def Obligations.MemReadAdmittedOrFault : Prop :=
  (∀ (s : State) (a : Nat), s.admitsRead a = false → s.memRead a = none) ∧
  (∀ (s : State) (a : Nat), s.admitsRead a = true → s.run.earlier a = [] →
    s.memRead a = some (s.mem.read a, s)) ∧
  ∀ (s : State) (rest : List Task), s.busy = true → s.run.todo = .sendLoop :: rest →
    s.run.st = .ok → s.run.idx < s.run.len → s.admitsRead (s.run.lbuf.toNat + s.run.idx) = false →
    s.micro = s.raise .bufAccess ∧ s.micro.busy = false ∧ ∀ n, s.micro.runBlock n = s.micro

/-- R53: an admitted `MemWrite` writes the byte, and no other; where RDBUF meets a refused one, the
Sequencer enters F_BUF_ACCESS and memory is as before. -/
def Obligations.MemWriteAdmittedOrFault : Prop :=
  (∀ (s : State) (a : Nat) (v : Byte), s.mem.Wf → s.admitsWrite a = true →
    ∃ t, s.memWrite a v = some t ∧ t = { s with mem := t.mem } ∧ t.mem.Wf ∧
      ∀ b, t.mem.read b = if b = a then v else s.mem.read b) ∧
  ∀ (s : State) (rest : List Task), s.busy = true → s.run.todo = .store :: rest →
    s.run.st = .ok → s.admitsWrite (s.run.lbuf.toNat + s.run.idx) = false →
    s.micro = s.raise .bufAccess ∧ s.micro.mem = s.mem ∧ s.micro.busy = false

/-! ## Acceptance, faults, reset (60_exceptions.md, 70_reset_and_hazards.md) -/

/-- When the word written to CMD decodes to `i`, the step is `exec i` with the host's action used up. -/
def Obligations.StepRunsTheDecodedCommand : Prop :=
  ∀ (s : State) (rest : List HostAct) (w : Word) (i : Instr),
    s.host = .write 4 s.platform.regBase w :: rest → decode w = some i →
    step s = exec i { s with host := rest }

/-- R201: the acceptance checks in their order, each refusal with no effect but the fault, and an accepted
command latched, BUSY set, and its body run, until the body has ended and BUSY is cleared. (`draws` moves
only if BUFPTR was still unspecified.) -/
def Obligations.AcceptanceInOrder : Prop :=
  (∀ s : State, s.busy = true → s.run.todo = [] → s.micro = { s with busy := false }) ∧
  ∀ (s : State) (rest : List HostAct) (w : Word), s.host = .write 4 s.platform.regBase w :: rest →
    (s.fault = true → step s = .next { s with host := rest }) ∧
    (s.fault = false → s.busy = true →
      step s = .next { s with host := rest, fault := true, fcause := .busy }) ∧
    (s.Ready → decode w = none →
      step s = .next { s with host := rest, fault := true, fcause := .illegal }) ∧
    (s.Ready → ∀ i, decode w = some i →
      ∃ d, (s.unset.bufptr = false → d = s.draws) ∧
        (∀ c, refusedBy i s = some c →
          step s = .next { s with host := rest, fault := true, fcause := c, draws := d }) ∧
        (refusedBy i s = none →
          ∃ lb, ((∃ dev sub len, i = .wrbuf dev sub len ∨ i = .rdbuf dev sub len) →
              lb = s.bufptrNow) ∧
            step s = .next (State.runBlock s.pace { s with
              host := rest, draws := d, busy := true
              run := { s.run with
                cmd := i, lbuf := lb, idx := 0, st := .ok, todo := commandBody i, olds := [] } })))

/-- R203: `raise Fault(c)`. The first cause is kept; nothing else of the state changes, but that
F_BUF_ACCESS ends the running body at once, BUSY cleared, RESULT not written and no further bus
operation. -/
def Obligations.FaultEntry : Prop :=
  ∀ (c : Cause) (s : State),
    (s.raise c).fault = true ∧
    (s.raise c).fcause = (if s.fault then s.fcause else c) ∧
    (c ≠ .bufAccess → s.raise c = { s with fault := true, fcause := (s.raise c).fcause }) ∧
    (c = .bufAccess →
      s.raise c = { s with
        fault := true, fcause := (s.raise c).fcause, busy := false
        run := { s.run with todo := [] } } ∧
      ∀ n, (s.raise c).runBlock n = s.raise c)

/-- R204: a faulted block drops every CMD write, whatever the word; host reads and writes of BUFPTR still
work and FCAUSE keeps the first cause; and a command that was running when F_BUSY was raised runs exactly
as it would have run without it. -/
def Obligations.FaultedBlockDropsCommands : Prop :=
  (∀ (s : State) (rest : List HostAct) (w : Word), s.fault = true →
    s.host = .write 4 s.platform.regBase w :: rest → step s = .next { s with host := rest }) ∧
  (∀ (s : State) (rest : List HostAct) (off : Nat), s.fault = true → off % 4 = 0 →
    s.host = .read 4 (s.platform.regBase + off) :: rest →
    ∃ t, step s = .next t ∧ t.hostData = s.hostView off ∧
      t = { s with host := rest, hostData := t.hostData, draws := t.draws }) ∧
  (∀ (s : State) (rest : List HostAct) (v : Word), s.fault = true →
    s.host = .write 4 (s.platform.regBase + 4) v :: rest →
    step s = .next { s with
      host := rest, bufptr := v.setWidth 16, unset := { s.unset with bufptr := false } }) ∧
  ∀ (n : Nat) (s : State), s.fault = false → s.busy = true →
    (s.raise .busy).runBlock n = { s.runBlock n with fault := true, fcause := .busy }

/-- R205: only reset leaves the fault state. -/
def Obligations.OnlyResetClearsFault : Prop :=
  (∀ s t : State, s.fault = true → step s = .next t → (∀ rest, s.host ≠ .reset :: rest) →
    t.fault = true ∧ t.fcause = s.fcause) ∧
  ∀ (s : State) (rest : List HostAct), s.host = .reset :: rest →
    ∃ t, step s = .next t ∧ t.fault = false ∧ t.fcause = .none

/-- The reset values 10_state.md R42 gives, that the six registers it leaves unspecified are marked so, and
that the parameters are in the ranges of 00_scope.md R7, two of them at its defaults (log 7). (The 0 they hold, and the fields of the model's own, are design choices: logs 1 to 10.) -/
def Obligations.ResetValues : Prop :=
  State.reset.phase = .idle ∧ State.reset.held = false ∧ State.reset.busy = false ∧
  State.reset.fault = false ∧ State.reset.fcause = .none ∧ State.reset.configured = false ∧
  State.reset.stoPend = false ∧ State.reset.run.todo = [] ∧ State.reset.trace = [] ∧
  State.reset.unset = ⟨true, true, true, true, true, true⟩ ∧
  State.reset.platform.InRange ∧ State.reset.platform.pollLimit = none ∧
  State.reset.platform.startAccept = [.startSent, .rstartSent]

/-- Reset at any time: the running command is abandoned and nothing of it completes later, every register
takes its reset value, and no bus operation is issued. (What the registers left unspecified hold, and that
the memory and both agents stay as they are, is the model's choice: logs 4, 10 and 16.) -/
def Obligations.ResetAbandons : Prop :=
  ∀ (s : State) (rest : List HostAct), s.host = .reset :: rest →
    ∃ t, step s = .next t ∧ t.trace = s.trace ∧
      t = { State.reset with
        mem := s.mem, platform := s.platform, env := s.env, picks := s.picks, trace := s.trace
        draws := s.draws, host := rest, hostData := s.hostData, pace := s.pace } ∧
      ∀ n, t.runBlock n = t

/-! ## The host port (20_memory.md) -/

/-- R56: the registers at their offsets from REG_BASE, through a step, whatever the block is doing. A write
to CMD issues the command, a write to BUFPTR takes the low 16 bits and changes nothing else, and no other
register takes a write. Each register reads as the map says, bit by bit, when its own contents are specified
(CMD and CTRLSTAT always are), and the bits not listed read 0. -/
def Obligations.RegisterMap : Prop :=
  ∀ (s : State) (rest : List HostAct),
    (∀ w : Word, s.host = .write 4 s.platform.regBase w :: rest →
      step s = accept w { s with host := rest }) ∧
    (∀ v : Word, s.host = .write 4 (s.platform.regBase + 0x04) v :: rest →
      step s = .next { s with
        host := rest, bufptr := v.extractLsb' 0 16, unset := { s.unset with bufptr := false } }) ∧
    (∀ (off : Nat) (v : Word), off % 4 = 0 → off ≠ 0x00 → off ≠ 0x04 →
      s.host = .write 4 (s.platform.regBase + off) v :: rest →
      step s = .next { s with host := rest }) ∧
    ∀ off : Nat, off % 4 = 0 → s.host = .read 4 (s.platform.regBase + off) :: rest →
      ∃ t, step s = .next t ∧
        (off = 0x00 → t.hostData = 0) ∧
        (off = 0x04 → (s.unset.bufptr = false → t.hostData.extractLsb' 0 16 = s.bufptr) ∧
          t.hostData.extractLsb' 16 16 = 0) ∧
        (off = 0x08 → t.hostData.getLsbD 0 = s.busy ∧ t.hostData.getLsbD 1 = s.fault ∧
          t.hostData.getLsbD 2 = s.configured ∧ t.hostData.getLsbD 3 = s.held ∧
          t.hostData.extractLsb' 4 3 = s.phase.code ∧ t.hostData.getLsbD 7 = false ∧
          t.hostData.extractLsb' 8 4 = s.fcause.code ∧ t.hostData.extractLsb' 12 20 = 0) ∧
        (off = 0x0C → (s.unset.result = false → t.hostData.extractLsb' 0 3 = s.result.code) ∧
          t.hostData.extractLsb' 3 29 = 0) ∧
        (off = 0x10 → (s.unset.rdata = false → t.hostData.extractLsb' 0 8 = s.rdata) ∧
          t.hostData.extractLsb' 8 24 = 0) ∧
        (off = 0x14 → (s.unset.div = false → t.hostData.extractLsb' 0 8 = s.div) ∧
          (s.unset.ps = false → t.hostData.extractLsb' 8 2 = s.ps) ∧
          t.hostData.extractLsb' 10 22 = 0) ∧
        (off = 0x18 → (s.unset.tws = false → t.hostData.extractLsb' 0 8 = s.tws) ∧
          t.hostData.extractLsb' 8 24 = 0)

/-- R57: a register access that is not 32 bits wide, or not at a multiple of 4, has no step; every other
access to the block has one. -/
def Obligations.OddAccessesAreRefused : Prop :=
  ∀ (s : State) (rest : List HostAct) (bytes off : Nat) (v : Word),
    (s.host = .read bytes (s.platform.regBase + off) :: rest →
      ((bytes ≠ 4 ∨ off % 4 ≠ 0) → step s = .refused (.hostAccess bytes off)) ∧
      (bytes = 4 → off % 4 = 0 → ∃ t, step s = .next t)) ∧
    (s.host = .write bytes (s.platform.regBase + off) v :: rest →
      ((bytes ≠ 4 ∨ off % 4 ≠ 0) → step s = .refused (.hostAccess bytes off)) ∧
      (bytes = 4 → off % 4 = 0 → ∃ t, step s = .next t))

/-- Host accesses, whatever the block is doing. A read returns the register's word and changes nothing of the
block (a draw is used up only where contents are unspecified); CMD and the undecoded offsets read 0; a write
to BUFPTR writes BUFPTR alone; a write to a read-only register or an undecoded offset is ignored. An access
below REG_BASE is not to this block (log 8, the model's choice). -/
def Obligations.HostAccessEffects : Prop :=
  (∀ (s : State) (rest : List HostAct) (off : Nat), off % 4 = 0 →
    s.host = .read 4 (s.platform.regBase + off) :: rest →
    ∃ t, step s = .next t ∧ t.hostData = s.hostView off ∧
      t = { s with host := rest, hostData := t.hostData, draws := t.draws } ∧
      (s.viewIsFree off = false → t.draws = s.draws) ∧
      ((off = 0 ∨ 0x1C ≤ off) → t.hostData = 0 ∧ t.draws = s.draws)) ∧
  (∀ (s : State) (rest : List HostAct) (v : Word),
    s.host = .write 4 (s.platform.regBase + 0x04) v :: rest →
    ∃ t, step s = .next t ∧ t.hostView 0x04 = v &&& 0xFFFF ∧
      t = { s with host := rest, bufptr := t.bufptr, unset := { s.unset with bufptr := false } }) ∧
  (∀ (s : State) (rest : List HostAct) (off : Nat) (v : Word), off % 4 = 0 → 8 ≤ off →
    s.host = .write 4 (s.platform.regBase + off) v :: rest → step s = .next { s with host := rest }) ∧
  ∀ (s : State) (rest : List HostAct) (bytes addr : Nat) (v : Word), addr < s.platform.regBase →
    (s.host = .read bytes addr :: rest ∨ s.host = .write bytes addr v :: rest) →
    step s = .refused (.otherUnit bytes addr)

/-- A host write to CMD is the only host action that starts block activity: any other step of a block that
is not busy leaves it so, issues no bus operation and asks BusEnv nothing. -/
def Obligations.OnlyCommandsStartTheBlock : Prop :=
  ∀ s t : State, s.busy = false → (∀ w rest, s.host ≠ .write 4 s.platform.regBase w :: rest) → step s = .next t →
    t.busy = false ∧ t.trace = s.trace ∧ t.env = s.env

/-- While one of the six registers 10_state.md R42 leaves unspecified is still so, a host read gives its bits
of a free draw, which the next read does not repeat; and while BUFPTR is, so does the latch of a buffered
command. Nothing fixes `Config.freeWord` (log 4). -/
def Obligations.UnspecifiedReadsAreDraws : Prop :=
  ∀ (s : State) (rest : List HostAct),
    (∀ (off : Nat) (bits : Word) (unset : Bool),
      (off, bits, unset) ∈ [(0x04, 0xFFFF, s.unset.bufptr), (0x0C, 0x7, s.unset.result),
        (0x10, 0xFF, s.unset.rdata), (0x14, 0xFF, s.unset.div), (0x14, 0x300, s.unset.ps),
        (0x18, 0xFF, s.unset.tws)] →
      unset = true → s.host = .read 4 (s.platform.regBase + off) :: rest →
      ∃ t, step s = .next t ∧ t.draws = s.draws + 1 ∧
        t.hostData &&& bits = Config.freeWord s.draws &&& bits) ∧
    ∀ (i : Instr) (dev : BitVec 7) (sub len : Byte),
      (i = .wrbuf dev sub len ∨ i = .rdbuf dev sub len) → s.Accepting → s.unset.bufptr = true →
      ((Config.freeWord s.draws).extractLsb' 0 16).toNat + len.toNat ≤ 65536 →
      exec i s = .next (State.runBlock s.pace { s with
        draws := s.draws + 1, busy := true
        run := { s.run with
          cmd := i, lbuf := (Config.freeWord s.draws).extractLsb' 0 16, idx := 0, st := .ok
          todo := commandBody i, olds := [] } })

/-- R247: a host write to BUFPTR is allowed while a command runs; it changes nothing of that command, and is
what the next buffered command latches. -/
def Obligations.BufptrWriteSparesTheCommand : Prop :=
  (∀ (s : State) (rest : List HostAct) (v : Word),
    s.host = .write 4 (s.platform.regBase + 0x04) v :: rest →
    step s = .next ({ s with host := rest }.setBufptr (v.extractLsb' 0 16))) ∧
  ∀ (s : State) (v : Addr),
    (∀ n, (s.setBufptr v).runBlock n = (s.runBlock n).setBufptr v) ∧ (s.setBufptr v).bufptrNow = v

/-- The race of 20_memory.md R61, in the form of log 19, with one point a step (log 1). A host write to the
byte WRBUF reads next may or may not be seen when it comes before the block's read, and is not when it comes
after; a host read of the byte RDBUF stores gives the received value or the old one after the store, and the
old one before it. `p`, the free choice, is any number. -/
def Obligations.BufferRaceAdmitsBothValues : Prop :=
  ∀ (s : State) (rest : List HostAct) (ts : List Task) (a : Addr) (p : Nat) (ps : List Nat),
    s.mem.Wf → s.pace ≤ 1 → s.busy = true → s.run.st = .ok → s.run.idx < s.run.len →
    a.toNat = s.run.lbuf.toNat + s.run.idx → s.run.earlier a.toNat = [] → s.picks = p :: ps →
    (∀ v : Byte, s.run.todo = .sendLoop :: ts → s.admitsRead a.toNat = true →
      ∃ t1 t2 u1 u2,
        step { s with host := .bufWrite a v :: .idle :: rest } = .next t1 ∧ step t1 = .next u1 ∧
        u1.run.todo =
          .write (if p % 2 = 0 then v else s.mem.read a.toNat) :: .sendNext :: ts ∧
        step { s with host := .idle :: .bufWrite a v :: rest } = .next t2 ∧ step t2 = .next u2 ∧
        u2.run.todo = .write (s.mem.read a.toNat) :: .sendNext :: ts ∧
        u1.mem = u2.mem ∧ u1.mem.read a.toNat = v) ∧
    (∀ (dev : BitVec 7) (sub len : Byte), s.run.cmd = .rdbuf dev sub len →
      s.run.todo = .store :: ts → s.admitsWrite a.toNat = true →
      ∃ t1 t2 u1 u2,
        step { s with host := .idle :: .bufRead a :: rest } = .next t1 ∧ step t1 = .next u1 ∧
        u1.hostData = (if p % 2 = 0 then s.run.rx else s.mem.read a.toNat).setWidth 32 ∧
        step { s with host := .bufRead a :: .idle :: rest } = .next t2 ∧ step t2 = .next u2 ∧
        u2.hostData = (s.mem.read a.toNat).setWidth 32 ∧
        u1.mem = u2.mem ∧ u1.mem.read a.toNat = s.run.rx)

/-! ## INIT (40_clock_configurator.md) -/

/-- R103 to R106 and R108: the configuration INIT computes, by the thresholds of `raw`. -/
def Obligations.ClockThresholds : Prop :=
  ∀ f rate : Nat, 1 ≤ rate →
    let raw := rawDivisor f rate
    clockSetting f rate = clockTable raw ∧
    (raw < 0 ↔ f / (2 * (rate * 100000)) < 8) ∧
    (0 ≤ raw → ∀ k : Nat, k ≤ 3 → raw / 4 ^ k ≤ 255 → (∀ j < k, 255 < raw / (4 : Int) ^ j) →
      clockSetting f rate =
        (BitVec.ofInt 8 (raw / 4 ^ k), BitVec.ofNat 2 k,
          if k = 0 then .ok else .prescalerAttached)) ∧
    ((255 < raw / 64 ↔ 16384 ≤ raw) ∧
      (16384 ≤ raw → clockSetting f rate = (255, 3, .slowerThanRequested)))

/-- R110: the rate `f / (16 + 2 · DIV · 4^PS)` that a configuration gives, against the target, by
outcome. -/
def Obligations.ClockRateAgainstTarget : Prop :=
  ∀ f rate : Nat, 1 ≤ f → 1 ≤ rate →
    let raw := rawDivisor f rate
    let target : ℚ := rate * 100000
    let d := (clockSetting f rate).1
    let p := (clockSetting f rate).2.1
    let c := (clockSetting f rate).2.2
    let bus : ℚ := f / (16 + 2 * d.toNat * 4 ^ p.toNat)
    ((c = .ok ∨ c = .prescalerAttached) →
      target ≤ bus ∧
      (bus = target ↔ (2 * (rate * 100000) ∣ f ∧ (4 : Int) ^ p.toNat ∣ raw))) ∧
    (raw < 0 → c = .slowerThanRequested ∧ bus = f / 16 ∧ bus < target) ∧
    (16384 ≤ raw → c = .slowerThanRequested ∧ bus = f / 32656 ∧ target < bus)

/-- R101, R111: an accepted INIT, in every bus state, writes DIV, PS, RESULT and CONFIGURED by the
thresholds, and nothing else. -/
def Obligations.InitConfigures : Prop :=
  ∀ (s : State) (rate : BitVec 8), s.Ready → rate ≠ 0 → 4 ≤ s.pace →
    ∃ t, exec (.init rate) s = .next t ∧
      (t.div, t.ps, t.result) = clockTable (rawDivisor s.platform.sysClkHz rate.toNat) ∧
      t = { s with
        div := t.div, ps := t.ps, result := t.result, configured := true
        unset := { s.unset with div := false, ps := false, result := false }
        run := t.run }

/-! ## The phase primitives (41_phase_primitives.md) -/

/-- START from any accepting state, whatever the two statuses and however long each operation takes
within the poll limit: its result, its phase, its bus operations, and everything it leaves alone. -/
def Obligations.StartOutcome : Prop :=
  ∀ (s : State) (a : Byte) (n1 n2 : Nat) (st1 d1 st2 d2 : Byte) (rest : List BusAnswer),
    s.Accepting → s.env = replies n1 st1 d1 (replies n2 st2 d2 rest) →
    waitAllowed s.platform n1 → waitAllowed s.platform n2 → n1 + n2 + 6 ≤ s.pace →
    ∃ t, exec (.start a) s = .next t ∧
      t = { s with
        stoPend := false
        held := true
        phase :=
          if st1 ∈ s.platform.startBytes ∧ ackedAddress st2 then
            (if a.getLsbD 0 then .addressAckedRead else .addressAcked)
          else if s.held then .repeatedStart else .started
        tws := if st1 ∈ s.platform.startBytes then st2 else st1
        result :=
          if st1 ∈ s.platform.startBytes then
            (if ackedAddress st2 then .ok else .slaveAddressNotAcknowledging)
          else .badStart
        trace := s.trace ++
          (if st1 ∈ s.platform.startBytes then [.startCond, .tx a] else [.startCond])
        env := if st1 ∈ s.platform.startBytes then rest else replies n2 st2 d2 rest
        unset := { s.unset with result := false, tws := false }
        run := t.run }

/-- STOP from any accepting state: nothing at all while the bus is not held, else one `StopCond` and the
bus released; RESULT, TWS and RDATA untouched. -/
def Obligations.StopOutcome : Prop :=
  ∀ (s : State), s.Accepting →
    (s.held = false → 2 ≤ s.pace →
      ∃ t, exec .stop s = .next t ∧ t = { s with run := t.run }) ∧
    (∀ (n : Nat) (st d : Byte) (rest : List BusAnswer), s.held = true →
      s.env = replies n st d rest → waitAllowed s.platform n → n + 3 ≤ s.pace →
      ∃ t, exec .stop s = .next t ∧
        t = { s with
          held := false, phase := .stopped, stoPend := false
          trace := s.trace ++ [.stopCond], env := rest, run := t.run })

/-- R131: after a STOP that completes (one that has ended and whose wait did not expire, which only a poll
limit allows) HELD is 0, and a second STOP issues no bus operation and leaves the state exactly as it was,
whatever BusEnv answered. -/
def Obligations.StopTwiceIsStopOnce : Prop :=
  ∀ s t : State, s.Accepting → exec .stop s = .next t → t.busy = false →
    (s.platform.pollLimit = none ∨ t.stoPend = false) →
    t.held = false ∧ exec .stop t = .next t

/-- WRITE from any accepting state with the bus held, whatever the status. -/
def Obligations.WriteOutcome : Prop :=
  ∀ (s : State) (b : Byte) (n : Nat) (st d : Byte) (rest : List BusAnswer),
    s.Accepting → s.held = true → s.env = replies n st d rest → waitAllowed s.platform n →
    n + 5 ≤ s.pace →
    ∃ t, exec (.write b) s = .next t ∧
      t = { s with
        phase := if st = dataTxAck then .writing else s.phase
        tws := st
        result := if st = dataTxAck then .ok else .slaveDataNotAcknowledging
        trace := s.trace ++ [.tx b]
        env := rest
        unset := { s.unset with result := false, tws := false }
        run := t.run }

/-- READ from any accepting state with the bus held: the byte is taken whatever its status, and RESULT
keeps its value. -/
def Obligations.ReadOutcome : Prop :=
  ∀ (s : State) (ack : Bool) (n : Nat) (st d : Byte) (rest : List BusAnswer),
    s.Accepting → s.held = true → s.env = replies n st d rest → waitAllowed s.platform n →
    n + 5 ≤ s.pace →
    ∃ t, exec (.read ack) s = .next t ∧
      t = { s with
        phase := .reading
        tws := st
        rdata := d
        trace := s.trace ++ [.rx ack]
        env := rest
        unset := { s.unset with rdata := false, tws := false }
        run := t.run }

/-- A bus operation that stays unanswered for `L` polls under POLL_LIMIT = some L: START (at its start
condition, or at its address byte once the start was accepted), WRITE and READ report Timeout and STOP
reports nothing; the bus stays held. (The buffered commands are in `BufferedTimeouts`.) -/
def Obligations.ExpiredPollsTimeOut : Prop :=
  ∀ (s : State) (l : Nat) (rest : List BusAnswer), s.Accepting → 1 ≤ l →
    s.platform.pollLimit = some l →
    (s.env = List.replicate l .notYet ++ rest → l + 3 ≤ s.pace →
      (∀ a, ∃ t, exec (.start a) s = .next t ∧
        t = { s with
          stoPend := false, held := true
          phase := if s.held then .repeatedStart else .started
          result := .timeout, trace := s.trace ++ [.startCond], env := rest
          unset := { s.unset with result := false }, run := t.run }) ∧
      (s.held = true →
        (∃ t, exec .stop s = .next t ∧
          t = { s with
            stoPend := true, trace := s.trace ++ [.stopCond], env := rest, run := t.run }) ∧
        (∀ b, ∃ t, exec (.write b) s = .next t ∧
          t = { s with
            result := .timeout, trace := s.trace ++ [.tx b], env := rest
            unset := { s.unset with result := false }, run := t.run }) ∧
        (∀ ack, ∃ t, exec (.read ack) s = .next t ∧
          t = { s with
            result := .timeout, trace := s.trace ++ [.rx ack], env := rest
            unset := { s.unset with result := false }, run := t.run }))) ∧
    ∀ (a : Byte) (r : Reply), r.status ∈ s.platform.startBytes →
      s.Hears [r] (List.replicate l .notYet ++ rest) → r.polls + l + 4 ≤ s.pace →
      ∃ t, exec (.start a) s = .next t ∧
        t = { s with
          stoPend := false, held := true
          phase := if s.held then .repeatedStart else .started
          tws := r.status, result := .timeout, trace := s.trace ++ [.startCond, .tx a], env := rest
          unset := { s.unset with result := false, tws := false }, run := t.run }

/-- A hang is a run: with POLL_LIMIT = none, polls answered NotYet only use up the answers and count,
however many there are, and BUSY stays 1. -/
def Obligations.UnansweredPollsHang : Prop :=
  ∀ (n : Nat) (s : State) (t : Task) (ts : List Task) (rest : List BusAnswer), s.busy = true →
    s.platform.pollLimit = none → s.run.todo = t :: ts → s.env = List.replicate n .notYet ++ rest →
    (t.waiting = true ∨ (t = .stopPoll ∧ s.stoPend = true)) →
    s.runBlock n = { s with env := rest, run := { s.run with npoll := s.run.npoll + n } }

/-! ## The buffered operations (42_buffered_operations.md) -/

/-- The failures before the data, the same for the three buffered commands: a bad start, an address or a
sub-address that is not acknowledged. The cleanup stop is issued, no memory is touched. -/
def Obligations.BufferedEarlyFailures : Prop :=
  ∀ (s : State) (i : Instr) (dev : BitVec 7) (sub arg : Byte) (x y r1 r2 r3 : Reply)
    (rest : List BusAnswer),
    s.Accepting →
    (i = .wrsingle dev sub arg ∨
      ((i = .wrbuf dev sub arg ∨ i = .rdbuf dev sub arg) ∧ s.unset.bufptr = false ∧
        s.bufptr.toNat + arg.toNat ≤ 65536)) →
    16 + pollCount (transaction s.held x y [r1, r2, r3]) ≤ s.pace →
    (r1.status ∉ s.platform.startBytes → s.Hears (transaction s.held x y [r1]) rest →
      ∃ t, exec i s = .next t ∧ Transacted s t .badStart r1.status [.startCond] s.mem rest) ∧
    (r1.status ∈ s.platform.startBytes → ¬ ackedAddress r2.status →
      s.Hears (transaction s.held x y [r1, r2]) rest →
      ∃ t, exec i s = .next t ∧ Transacted s t .slaveAddressNotAcknowledging r2.status
        [.startCond, .tx (sla dev false)] s.mem rest) ∧
    (r1.status ∈ s.platform.startBytes → ackedAddress r2.status → r3.status ≠ dataTxAck →
      s.Hears (transaction s.held x y [r1, r2, r3]) rest →
      ∃ t, exec i s = .next t ∧ Transacted s t .slaveDataNotAcknowledging r3.status
        [.startCond, .tx (sla dev false), .tx sub] s.mem rest)

/-- WRSINGLE once its sub-address is acknowledged: the byte is sent, and its status decides RESULT. -/
def Obligations.WrsingleSends : Prop :=
  ∀ (s : State) (dev : BitVec 7) (sub b : Byte) (x y r1 r2 r3 r4 : Reply) (rest : List BusAnswer),
    s.Accepting → Opens s.platform r1 r2 r3 →
    s.Hears (transaction s.held x y [r1, r2, r3, r4]) rest →
    16 + pollCount (transaction s.held x y [r1, r2, r3, r4]) ≤ s.pace →
    ∃ t, exec (.wrsingle dev sub b) s = .next t ∧
      Transacted s t (if r4.status = dataTxAck then .ok else .slaveDataNotAcknowledging) r4.status
        [.startCond, .tx (sla dev false), .tx sub, .tx b] s.mem rest

/-- WRBUF with `acks.length` bytes acknowledged and, if that is not all of them, the next one not: the
bytes sent are those of the buffer in rising order up to that one, read from memory as it stands, none
after it; RESULT is Ok exactly if all were acknowledged. With `len = 0` no data byte is sent. -/
def Obligations.WrbufSendsTheBuffer : Prop :=
  ∀ (s : State) (dev : BitVec 7) (sub len : Byte) (x y r1 r2 r3 bad : Reply) (acks rs : List Reply)
    (rest : List BusAnswer),
    s.Accepting → s.BufferUsable (.wrbuf dev sub len) → Opens s.platform r1 r2 r3 →
    (∀ r ∈ acks, r.status = dataTxAck) → bad.status ≠ dataTxAck → acks.length ≤ len.toNat →
    rs = transaction s.held x y
      ([r1, r2, r3] ++ acks ++ if acks.length < len.toNat then [bad] else []) →
    s.Hears rs rest → 5 * len.toNat + 16 + pollCount rs ≤ s.pace →
    ∃ t, exec (.wrbuf dev sub len) s = .next t ∧
      Transacted s t
        (if acks.length < len.toNat then .slaveDataNotAcknowledging else .ok)
        (if acks.length < len.toNat then bad.status else dataTxAck)
        ([.startCond, .tx (sla dev false), .tx sub] ++
          (List.range (min (acks.length + 1) len.toNat)).map
            (fun k => .tx (s.mem.read (s.bufptr.toNat + k))))
        s.mem rest

/-- R167: WRSINGLE and a WRBUF of one byte that holds the same value issue the same bus operations, give
the same RESULT and leave the same state, under the same answers of BusEnv, whatever they are, and each
completes if the other does (WRBUF takes up to three points of the pseudocode more). -/
def Obligations.WrsingleIsWrbufOfOne : Prop :=
  ∀ (s t : State) (dev : BitVec 7) (sub : Byte), s.Accepting → s.unset.bufptr = false →
    s.admitsRead s.bufptr.toNat = true →
    (exec (.wrsingle dev sub (s.mem.read s.bufptr.toNat)) s = .next t → t.busy = false →
      ∃ u, exec (.wrbuf dev sub 1) { s with pace := s.pace + 3 } = .next u ∧
        u = { t with pace := s.pace + 3, run := u.run }) ∧
    (exec (.wrbuf dev sub 1) s = .next t → t.busy = false →
      ∃ u, exec (.wrsingle dev sub (s.mem.read s.bufptr.toNat)) s = .next u ∧
        u = { t with run := u.run })

/-- The failures of RDBUF at its repeated start and at its read-direction address. -/
def Obligations.RdbufDirectionFailures : Prop :=
  ∀ (s : State) (dev : BitVec 7) (sub len : Byte) (x y r1 r2 r3 r4 r5 : Reply)
    (rest : List BusAnswer),
    s.Accepting → s.unset.bufptr = false → s.bufptr.toNat + len.toNat ≤ 65536 →
    Opens s.platform r1 r2 r3 →
    20 + pollCount (transaction s.held x y [r1, r2, r3, r4, r5]) ≤ s.pace →
    (r4.status ∉ s.platform.startBytes →
      s.Hears (transaction s.held x y [r1, r2, r3, r4]) rest →
      ∃ t, exec (.rdbuf dev sub len) s = .next t ∧ Transacted s t .badStart r4.status
        [.startCond, .tx (sla dev false), .tx sub, .startCond] s.mem rest) ∧
    (r4.status ∈ s.platform.startBytes → ¬ ackedAddress r5.status →
      s.Hears (transaction s.held x y [r1, r2, r3, r4, r5]) rest →
      ∃ t, exec (.rdbuf dev sub len) s = .next t ∧
        Transacted s t .slaveAddressNotAcknowledging r5.status
          [.startCond, .tx (sla dev false), .tx sub, .startCond, .tx (sla dev true)] s.mem rest)

/-- RDBUF of `len` bytes, each but the last reported as received and acknowledged, the last with any
status: every byte but the last is answered with ACK and the last with NACK (R171), they stand in the
buffer in rising order, every other byte of memory is as before, and RESULT is Ok. -/
def Obligations.RdbufFillsTheBuffer : Prop :=
  ∀ (s : State) (dev : BitVec 7) (sub len : Byte) (x y r1 r2 r3 r4 r5 : Reply)
    (bytes rs : List Reply) (rest : List BusAnswer),
    s.Accepting → s.mem.Wf → s.BufferUsable (.rdbuf dev sub len) →
    Opens s.platform r1 r2 r3 → Turns s.platform r4 r5 →
    bytes.length = len.toNat → (∀ r ∈ bytes.dropLast, r.status = dataRxAck) →
    rs = transaction s.held x y ([r1, r2, r3, r4, r5] ++ bytes) → s.Hears rs rest →
    5 * len.toNat + 20 + pollCount rs ≤ s.pace →
    ∃ t, exec (.rdbuf dev sub len) s = .next t ∧
      Transacted s t .ok ((bytes.getLast?.map Reply.status).getD r5.status)
        ([.startCond, .tx (sla dev false), .tx sub, .startCond, .tx (sla dev true)] ++
          List.replicate (len.toNat - 1) (.rx true) ++ (if len = 0 then [] else [.rx false]))
        t.mem rest ∧
      (∀ k < len.toNat,
        t.mem.read (s.bufptr.toNat + k) = (bytes.map Reply.data).getD k 0) ∧
      ∀ b, (b < s.bufptr.toNat ∨ s.bufptr.toNat + len.toNat ≤ b) → t.mem.read b = s.mem.read b

/-- RDBUF with a byte that is not the last and whose status is not DATA_RX_ACK: that byte is still
stored, no further byte is received, the rest of memory is as before, and RESULT is
SlaveDataNotAcknowledging. -/
def Obligations.RdbufStopsAtABadByte : Prop :=
  ∀ (s : State) (dev : BitVec 7) (sub len : Byte) (x y r1 r2 r3 r4 r5 bad : Reply)
    (good rs : List Reply) (rest : List BusAnswer),
    s.Accepting → s.mem.Wf → s.BufferUsable (.rdbuf dev sub len) →
    Opens s.platform r1 r2 r3 → Turns s.platform r4 r5 →
    (∀ r ∈ good, r.status = dataRxAck) → bad.status ≠ dataRxAck → good.length + 1 < len.toNat →
    rs = transaction s.held x y ([r1, r2, r3, r4, r5] ++ good ++ [bad]) → s.Hears rs rest →
    5 * len.toNat + 20 + pollCount rs ≤ s.pace →
    ∃ t, exec (.rdbuf dev sub len) s = .next t ∧
      Transacted s t .slaveDataNotAcknowledging bad.status
        ([.startCond, .tx (sla dev false), .tx sub, .startCond, .tx (sla dev true)] ++
          List.replicate (good.length + 1) (.rx true)) t.mem rest ∧
      (∀ k < good.length,
        t.mem.read (s.bufptr.toNat + k) = (good.map Reply.data).getD k 0) ∧
      t.mem.read (s.bufptr.toNat + good.length) = bad.data ∧
      ∀ b, (b < s.bufptr.toNat ∨ s.bufptr.toNat + good.length < b) →
        t.mem.read b = s.mem.read b

/-- A refused buffer access in the body: WRBUF at its byte `j`, after `j` bytes were sent and
acknowledged. F_BUF_ACCESS, BUSY 0, the bus left held, no cleanup stop, RESULT not written. -/
def Obligations.RefusedReadHaltsWrbuf : Prop :=
  ∀ (s : State) (dev : BitVec 7) (sub len : Byte) (x r1 r2 r3 : Reply) (acks rs : List Reply)
    (rest : List BusAnswer),
    s.Accepting → s.unset.bufptr = false → s.bufptr.toNat + len.toNat ≤ 65536 →
    acks.length < len.toNat →
    (∀ k < acks.length, s.admitsRead (s.bufptr.toNat + k) = true) →
    s.admitsRead (s.bufptr.toNat + acks.length) = false →
    Opens s.platform r1 r2 r3 → (∀ r ∈ acks, r.status = dataTxAck) →
    rs = approach s.held x ([r1, r2, r3] ++ acks) → s.Hears rs rest →
    5 * len.toNat + 16 + pollCount rs ≤ s.pace →
    ∃ t, exec (.wrbuf dev sub len) s = .next t ∧
      t = { s with
        fault := true, fcause := .bufAccess, held := true, phase := .writing, stoPend := false
        tws := dataTxAck
        trace := s.trace ++ ((if s.held then [.stopCond] else []) ++
          [.startCond, .tx (sla dev false), .tx sub] ++
          (List.range acks.length).map (fun k => .tx (s.mem.read (s.bufptr.toNat + k))))
        env := rest
        unset := { s.unset with tws := false }
        run := t.run }

/-- The same of RDBUF: a refused write of its byte `j`, after `j` bytes were received, acknowledged and
stored. The byte was received, whatever its status, and is not stored. -/
def Obligations.RefusedWriteHaltsRdbuf : Prop :=
  ∀ (s : State) (dev : BitVec 7) (sub len : Byte) (x r1 r2 r3 r4 r5 last : Reply)
    (good rs : List Reply) (rest : List BusAnswer),
    s.Accepting → s.mem.Wf → s.unset.bufptr = false → s.bufptr.toNat + len.toNat ≤ 65536 →
    good.length < len.toNat →
    (∀ k < good.length, s.admitsWrite (s.bufptr.toNat + k) = true) →
    s.admitsWrite (s.bufptr.toNat + good.length) = false →
    Opens s.platform r1 r2 r3 → Turns s.platform r4 r5 → (∀ r ∈ good, r.status = dataRxAck) →
    rs = approach s.held x ([r1, r2, r3, r4, r5] ++ good ++ [last]) → s.Hears rs rest →
    5 * len.toNat + 20 + pollCount rs ≤ s.pace →
    ∃ t, exec (.rdbuf dev sub len) s = .next t ∧
      t = { s with
        fault := true, fcause := .bufAccess, held := true, phase := .reading, stoPend := false
        tws := last.status
        mem := t.mem
        trace := s.trace ++ ((if s.held then [.stopCond] else []) ++
          [.startCond, .tx (sla dev false), .tx sub, .startCond, .tx (sla dev true)] ++
          List.replicate good.length (.rx true) ++
          [.rx (decide (good.length + 1 ≠ len.toNat))])
        env := rest
        unset := { s.unset with tws := false }
        run := t.run } ∧
      (∀ k < good.length,
        t.mem.read (s.bufptr.toNat + k) = (good.map Reply.data).getD k 0) ∧
      ∀ b, (b < s.bufptr.toNat ∨ s.bufptr.toNat + good.length ≤ b) → t.mem.read b = s.mem.read b

/-- R181, the bus handle invariant: a buffered command that completes (BUSY back to 0, no fault) has issued
its cleanup stop last and leaves HELD = 0 and PHASE = Stopped, wherever its handshake failed and whatever
BusEnv answered, unless that cleanup stop expired: then STO_PEND is still 1 and the bus is still held, which
takes a poll limit. -/
def Obligations.BufferedCommandsReleaseTheBus : Prop :=
  ∀ (s t : State) (i : Instr), buffered i = true → s.Accepting →
    exec i s = .next t → t.busy = false → t.fault = false →
    (∃ ops, t.trace = s.trace ++ ops ++ [.stopCond]) ∧
    (t.stoPend = false → t.held = false ∧ t.phase = .stopped) ∧
    (t.stoPend = true → t.held = true ∧ s.platform.pollLimit ≠ none)

/-- R182: the RESULT values a buffered command that completes can leave; Timeout only under a poll
limit. -/
def Obligations.BufferedResults : Prop :=
  ∀ (s t : State) (i : Instr), buffered i = true → s.Accepting →
    exec i s = .next t → t.busy = false → t.fault = false →
    t.result = .ok ∨ t.result = .badStart ∨ t.result = .slaveAddressNotAcknowledging ∨
    t.result = .slaveDataNotAcknowledging ∨
    (t.result = .timeout ∧ s.platform.pollLimit ≠ none)

/-! ## Frames: what a command leaves unchanged, whatever BusEnv answers and however far it has got -/

/-- INIT: the bus state, TWS, RDATA, BUFPTR, STO_PEND and memory are untouched, and no bus operation is
issued (R111); BusEnv is not asked (R112). -/
def Obligations.InitFrame : Prop :=
  ∀ (s t : State) (rate : BitVec 8), exec (.init rate) s = .next t →
    t = { s with
      div := t.div, ps := t.ps, result := t.result, configured := t.configured, busy := t.busy
      fault := t.fault, fcause := t.fcause, run := t.run
      unset := { s.unset with div := t.unset.div, ps := t.unset.ps, result := t.unset.result } }

/-- START: DIV, PS, CONFIGURED, RDATA, BUFPTR and every byte of memory are untouched. -/
def Obligations.StartFrame : Prop :=
  ∀ (s t : State) (a : Byte), exec (.start a) s = .next t →
    t = { s with
      held := t.held, phase := t.phase, stoPend := t.stoPend, tws := t.tws, result := t.result
      busy := t.busy, fault := t.fault, fcause := t.fcause, run := t.run
      env := t.env, trace := t.trace, draws := t.draws
      unset := { s.unset with result := t.unset.result, tws := t.unset.tws } }

/-- STOP: RESULT, TWS, RDATA, DIV, PS, CONFIGURED, BUFPTR and every byte of memory are untouched. -/
def Obligations.StopFrame : Prop :=
  ∀ s t : State, exec .stop s = .next t →
    t = { s with
      held := t.held, phase := t.phase, stoPend := t.stoPend
      busy := t.busy, fault := t.fault, fcause := t.fcause, run := t.run
      env := t.env, trace := t.trace, draws := t.draws }

/-- WRITE and READ: HELD, STO_PEND, DIV, PS, CONFIGURED, BUFPTR and every byte of memory are untouched;
WRITE leaves RDATA alone too. -/
def Obligations.WriteReadFrame : Prop :=
  (∀ (s t : State) (b : Byte), exec (.write b) s = .next t →
    t = { s with
      phase := t.phase, tws := t.tws, result := t.result
      busy := t.busy, fault := t.fault, fcause := t.fcause, run := t.run
      env := t.env, trace := t.trace, draws := t.draws
      unset := { s.unset with result := t.unset.result, tws := t.unset.tws } }) ∧
  ∀ (s t : State) (ack : Bool), exec (.read ack) s = .next t →
    t = { s with
      phase := t.phase, tws := t.tws, result := t.result, rdata := t.rdata
      busy := t.busy, fault := t.fault, fcause := t.fcause, run := t.run
      env := t.env, trace := t.trace, draws := t.draws
      unset := { s.unset with
        result := t.unset.result, tws := t.unset.tws, rdata := t.unset.rdata } }

/-- WRBUF and WRSINGLE: DIV, PS, CONFIGURED, RDATA, BUFPTR and every byte of memory are untouched. -/
def Obligations.BufferedWriteFrame : Prop :=
  ∀ (s t : State) (i : Instr) (dev : BitVec 7) (sub arg : Byte),
    (i = .wrbuf dev sub arg ∨ i = .wrsingle dev sub arg) → exec i s = .next t →
    t = { s with
      held := t.held, phase := t.phase, stoPend := t.stoPend, tws := t.tws, result := t.result
      busy := t.busy, fault := t.fault, fcause := t.fcause, run := t.run
      env := t.env, trace := t.trace, draws := t.draws
      unset := { s.unset with result := t.unset.result, tws := t.unset.tws } }

/-- RDBUF: DIV, PS, CONFIGURED, RDATA and BUFPTR are untouched, and so is every byte outside the buffer,
the `len` bytes from the base that acceptance latches (`State.bufptrNow`). -/
def Obligations.RdbufFrame : Prop :=
  ∀ (s t : State) (dev : BitVec 7) (sub len : Byte), s.mem.Wf →
    exec (.rdbuf dev sub len) s = .next t →
    t = { s with
      held := t.held, phase := t.phase, stoPend := t.stoPend, tws := t.tws, result := t.result
      busy := t.busy, fault := t.fault, fcause := t.fcause, run := t.run
      env := t.env, trace := t.trace, draws := t.draws, mem := t.mem
      unset := { s.unset with result := t.unset.result, tws := t.unset.tws } } ∧
    ∀ b, (b < s.bufptrNow.toNat ∨ s.bufptrNow.toNat + len.toNat ≤ b) →
      t.mem.read b = s.mem.read b

/-! ## The machine as a whole -/

/-- The invariant holds in every state a step leads to from a state it holds in: HELD and PHASE agree
(R38), FCAUSE agrees with FAULT, memory keeps its canonical form, a running buffer fits the space, and
what is still to be done fits HELD. -/
def Obligations.StepKeepsInv : Prop :=
  ∀ s t : State, s.Inv → step s = .next t → t.Inv

/-- The invariant holds at reset. -/
def Obligations.ResetMeetsInv : Prop :=
  State.reset.Inv

/-- No step changes the platform's parameters (00_scope.md R7), and a bus operation that was issued stays in
the record. That the platform's refusals are among what is fixed (log 6), that `pace` never changes (log 1)
and that a reset keeps the record too (log 16) are the model's own choices. -/
def Obligations.PlatformIsFixed : Prop :=
  ∀ s t : State, step s = .next t →
    t.platform = s.platform ∧ t.pace = s.pace ∧ s.trace <+: t.trace

/-- A step in which the host does nothing (it has no action left, is idle, or polls a busy block) takes the
block `max 1 pace` points further (logs 1 and 3), and does nothing to a block that is not busy. -/
def Obligations.IdleStepRunsTheBlock : Prop :=
  ∀ (s : State) (rest : List HostAct),
    (s.host = [] → step s = .next (s.runBlock (max 1 s.pace))) ∧
    (s.host = .idle :: rest →
      step s = .next (State.runBlock (max 1 s.pace) { s with host := rest })) ∧
    (s.host = .waitIdle :: rest → s.busy = true →
      step s = .next (State.runBlock (max 1 s.pace) { s with hostData := s.ctrlstat })) ∧
    (s.host = .waitIdle :: rest → s.busy = false →
      step s = .next { s with host := rest, hostData := s.ctrlstat }) ∧
    ∀ n, (s.busy = false → s.runBlock n = s) ∧
      (s.busy = true → s.runBlock (n + 1) = s.micro.runBlock n)

/-- A buffered command in which, after the replies `rs` to its first bus operations, each of which passes
its check, the next one stays unanswered for `L` polls under POLL_LIMIT = some L: no later operation but the
cleanup stop is issued, RESULT is Timeout, the bus is free; RDBUF has stored the bytes it had received, and
memory is otherwise as before (a byte whose receive expired is not stored). -/
def Obligations.BufferedTimeouts : Prop :=
  ∀ (s : State) (i : Instr) (x y : Reply) (rs : List Reply) (l : Nat) (rest : List BusAnswer),
    buffered i = true → s.Accepting → s.mem.Wf → s.BufferUsable i →
    1 ≤ l → s.platform.pollLimit = some l → rs.length < (busPlan s i).length →
    (∀ c ∈ rs.zip (busPlan s i), c.1.status ∈ c.2.2) →
    s.Hears (approach s.held x rs) (List.replicate l .notYet ++ repliesTo [y] rest) →
    waitAllowed s.platform y.polls →
    5 * cmdLen i + 20 + pollCount (transaction s.held x y rs) + l ≤ s.pace →
    ∃ t, exec i s = .next t ∧
      t = { s with
        held := false, phase := .stopped, stoPend := false, result := .timeout
        tws := (rs.getLast?.map Reply.status).getD s.tws
        mem := t.mem
        trace := s.trace ++ ((if s.held then [.stopCond] else []) ++
          ((busPlan s i).take (rs.length + 1)).map Prod.fst ++ [.stopCond])
        env := rest
        unset := { s.unset with result := false, tws := s.unset.tws && rs.isEmpty }
        run := t.run } ∧
      ((∀ dev sub len, i ≠ .rdbuf dev sub len) → t.mem = s.mem) ∧
      ∀ dev sub len, i = .rdbuf dev sub len →
        (∀ k < rs.length - 5,
          t.mem.read (s.bufptr.toNat + k) = ((rs.drop 5).map Reply.data).getD k 0) ∧
        ∀ b, (b < s.bufptr.toNat ∨ s.bufptr.toNat + (rs.length - 5) ≤ b) →
          t.mem.read b = s.mem.read b

/-- The host's own accesses to the shared buffer memory, which always succeed (log 9): a write writes its
byte and no other; a read returns the byte as it stands, but for a byte of RDBUF's buffer that was overwritten
while the command runs, of which it returns that value or one from before, and so does the block's own
`MemRead` (log 19). -/
def Obligations.HostSharesTheBuffer : Prop :=
  (∀ (s : State) (rest : List HostAct) (a : Addr) (v : Byte), s.mem.Wf →
    s.host = .bufWrite a v :: rest →
    ∃ t, step s = .next t ∧
      t = { s with host := rest, mem := t.mem, run := { s.run with olds := t.run.olds } } ∧
      (∀ b, t.mem.read b = if b = a.toNat then v else s.mem.read b) ∧
      ((s.busy = false ∨ s.run.inBuffer a.toNat = false) → t.run.olds = s.run.olds)) ∧
  (∀ (s : State) (rest : List HostAct) (a : Addr), s.host = .bufRead a :: rest →
    ((s.busy = false ∨ fillsBuffer s.run.cmd = false ∨ s.run.earlier a.toNat = []) →
      step s = .next { s with host := rest, hostData := (s.mem.read a.toNat).setWidth 32 }) ∧
    ∃ t b, step s = .next t ∧ t.hostData = b.setWidth 32 ∧
      b ∈ s.mem.read a.toNat :: s.run.earlier a.toNat ∧
      t = { s with host := rest, hostData := t.hostData, picks := t.picks, draws := t.draws }) ∧
  ∀ (s : State) (a : Nat), s.admitsRead a = true →
    ∃ b t, s.memRead a = some (b, t) ∧ b ∈ s.mem.read a :: s.run.earlier a ∧
      t = { s with picks := t.picks, draws := t.draws }

/-- The bus statuses have thirteen different bytes, and a status that is none of them (OTHER) passes no check,
START_ACCEPT's included, whatever statuses that parameter holds (log 11 for the bytes). -/
def Obligations.OtherStatusesFail : Prop :=
  (∀ a b : BusStatus, a.code = b.code → a = b) ∧
  ∀ s : State, (∀ b : BusStatus, b.code ≠ s.tws) →
    s.startAccepted = false ∧ s.addrAcked = false ∧ s.dataAcked = false ∧ s.rxAcked = false
end

