-- ==== Sys2Proof/Laws/State.lean ====
section
/-! SUPPORT. For every named update of the state, what it makes of each field: one lemma per field, true
by unfolding, so that no later proof unfolds a record update. -/

namespace Sys2Proof.Machine

variable (s : State)

/-! ### `State.setClock` -/

@[simp] theorem State.setClock_div (d : BitVec 8) (p : BitVec 2) : (s.setClock d p).div = d := rfl
@[simp] theorem State.setClock_ps (d : BitVec 8) (p : BitVec 2) : (s.setClock d p).ps = p := rfl
@[simp] theorem State.setClock_configured (d : BitVec 8) (p : BitVec 2) : (s.setClock d p).configured = s.configured := rfl
@[simp] theorem State.setClock_held (d : BitVec 8) (p : BitVec 2) : (s.setClock d p).held = s.held := rfl
@[simp] theorem State.setClock_phase (d : BitVec 8) (p : BitVec 2) : (s.setClock d p).phase = s.phase := rfl
@[simp] theorem State.setClock_busy (d : BitVec 8) (p : BitVec 2) : (s.setClock d p).busy = s.busy := rfl
@[simp] theorem State.setClock_fault (d : BitVec 8) (p : BitVec 2) : (s.setClock d p).fault = s.fault := rfl
@[simp] theorem State.setClock_fcause (d : BitVec 8) (p : BitVec 2) : (s.setClock d p).fcause = s.fcause := rfl
@[simp] theorem State.setClock_result (d : BitVec 8) (p : BitVec 2) : (s.setClock d p).result = s.result := rfl
@[simp] theorem State.setClock_tws (d : BitVec 8) (p : BitVec 2) : (s.setClock d p).tws = s.tws := rfl
@[simp] theorem State.setClock_rdata (d : BitVec 8) (p : BitVec 2) : (s.setClock d p).rdata = s.rdata := rfl
@[simp] theorem State.setClock_bufptr (d : BitVec 8) (p : BitVec 2) : (s.setClock d p).bufptr = s.bufptr := rfl
@[simp] theorem State.setClock_stoPend (d : BitVec 8) (p : BitVec 2) : (s.setClock d p).stoPend = s.stoPend := rfl
@[simp] theorem State.setClock_run (d : BitVec 8) (p : BitVec 2) : (s.setClock d p).run = s.run := rfl
@[simp] theorem State.setClock_mem (d : BitVec 8) (p : BitVec 2) : (s.setClock d p).mem = s.mem := rfl
@[simp] theorem State.setClock_platform (d : BitVec 8) (p : BitVec 2) : (s.setClock d p).platform = s.platform := rfl
@[simp] theorem State.setClock_env (d : BitVec 8) (p : BitVec 2) : (s.setClock d p).env = s.env := rfl
@[simp] theorem State.setClock_picks (d : BitVec 8) (p : BitVec 2) : (s.setClock d p).picks = s.picks := rfl
@[simp] theorem State.setClock_trace (d : BitVec 8) (p : BitVec 2) : (s.setClock d p).trace = s.trace := rfl
@[simp] theorem State.setClock_unset (d : BitVec 8) (p : BitVec 2) : (s.setClock d p).unset = { s.unset with div := false, ps := false } := rfl
@[simp] theorem State.setClock_draws (d : BitVec 8) (p : BitVec 2) : (s.setClock d p).draws = s.draws := rfl
@[simp] theorem State.setClock_host (d : BitVec 8) (p : BitVec 2) : (s.setClock d p).host = s.host := rfl
@[simp] theorem State.setClock_hostData (d : BitVec 8) (p : BitVec 2) : (s.setClock d p).hostData = s.hostData := rfl
@[simp] theorem State.setClock_pace (d : BitVec 8) (p : BitVec 2) : (s.setClock d p).pace = s.pace := rfl

/-! ### `State.setResult` -/

@[simp] theorem State.setResult_div (c : StatusCode) : (s.setResult c).div = s.div := rfl
@[simp] theorem State.setResult_ps (c : StatusCode) : (s.setResult c).ps = s.ps := rfl
@[simp] theorem State.setResult_configured (c : StatusCode) : (s.setResult c).configured = s.configured := rfl
@[simp] theorem State.setResult_held (c : StatusCode) : (s.setResult c).held = s.held := rfl
@[simp] theorem State.setResult_phase (c : StatusCode) : (s.setResult c).phase = s.phase := rfl
@[simp] theorem State.setResult_busy (c : StatusCode) : (s.setResult c).busy = s.busy := rfl
@[simp] theorem State.setResult_fault (c : StatusCode) : (s.setResult c).fault = s.fault := rfl
@[simp] theorem State.setResult_fcause (c : StatusCode) : (s.setResult c).fcause = s.fcause := rfl
@[simp] theorem State.setResult_result (c : StatusCode) : (s.setResult c).result = c := rfl
@[simp] theorem State.setResult_tws (c : StatusCode) : (s.setResult c).tws = s.tws := rfl
@[simp] theorem State.setResult_rdata (c : StatusCode) : (s.setResult c).rdata = s.rdata := rfl
@[simp] theorem State.setResult_bufptr (c : StatusCode) : (s.setResult c).bufptr = s.bufptr := rfl
@[simp] theorem State.setResult_stoPend (c : StatusCode) : (s.setResult c).stoPend = s.stoPend := rfl
@[simp] theorem State.setResult_run (c : StatusCode) : (s.setResult c).run = s.run := rfl
@[simp] theorem State.setResult_mem (c : StatusCode) : (s.setResult c).mem = s.mem := rfl
@[simp] theorem State.setResult_platform (c : StatusCode) : (s.setResult c).platform = s.platform := rfl
@[simp] theorem State.setResult_env (c : StatusCode) : (s.setResult c).env = s.env := rfl
@[simp] theorem State.setResult_picks (c : StatusCode) : (s.setResult c).picks = s.picks := rfl
@[simp] theorem State.setResult_trace (c : StatusCode) : (s.setResult c).trace = s.trace := rfl
@[simp] theorem State.setResult_unset (c : StatusCode) : (s.setResult c).unset = { s.unset with result := false } := rfl
@[simp] theorem State.setResult_draws (c : StatusCode) : (s.setResult c).draws = s.draws := rfl
@[simp] theorem State.setResult_host (c : StatusCode) : (s.setResult c).host = s.host := rfl
@[simp] theorem State.setResult_hostData (c : StatusCode) : (s.setResult c).hostData = s.hostData := rfl
@[simp] theorem State.setResult_pace (c : StatusCode) : (s.setResult c).pace = s.pace := rfl

/-! ### `State.setTws` -/

@[simp] theorem State.setTws_div (v : Byte) : (s.setTws v).div = s.div := rfl
@[simp] theorem State.setTws_ps (v : Byte) : (s.setTws v).ps = s.ps := rfl
@[simp] theorem State.setTws_configured (v : Byte) : (s.setTws v).configured = s.configured := rfl
@[simp] theorem State.setTws_held (v : Byte) : (s.setTws v).held = s.held := rfl
@[simp] theorem State.setTws_phase (v : Byte) : (s.setTws v).phase = s.phase := rfl
@[simp] theorem State.setTws_busy (v : Byte) : (s.setTws v).busy = s.busy := rfl
@[simp] theorem State.setTws_fault (v : Byte) : (s.setTws v).fault = s.fault := rfl
@[simp] theorem State.setTws_fcause (v : Byte) : (s.setTws v).fcause = s.fcause := rfl
@[simp] theorem State.setTws_result (v : Byte) : (s.setTws v).result = s.result := rfl
@[simp] theorem State.setTws_tws (v : Byte) : (s.setTws v).tws = v := rfl
@[simp] theorem State.setTws_rdata (v : Byte) : (s.setTws v).rdata = s.rdata := rfl
@[simp] theorem State.setTws_bufptr (v : Byte) : (s.setTws v).bufptr = s.bufptr := rfl
@[simp] theorem State.setTws_stoPend (v : Byte) : (s.setTws v).stoPend = s.stoPend := rfl
@[simp] theorem State.setTws_run (v : Byte) : (s.setTws v).run = s.run := rfl
@[simp] theorem State.setTws_mem (v : Byte) : (s.setTws v).mem = s.mem := rfl
@[simp] theorem State.setTws_platform (v : Byte) : (s.setTws v).platform = s.platform := rfl
@[simp] theorem State.setTws_env (v : Byte) : (s.setTws v).env = s.env := rfl
@[simp] theorem State.setTws_picks (v : Byte) : (s.setTws v).picks = s.picks := rfl
@[simp] theorem State.setTws_trace (v : Byte) : (s.setTws v).trace = s.trace := rfl
@[simp] theorem State.setTws_unset (v : Byte) : (s.setTws v).unset = { s.unset with tws := false } := rfl
@[simp] theorem State.setTws_draws (v : Byte) : (s.setTws v).draws = s.draws := rfl
@[simp] theorem State.setTws_host (v : Byte) : (s.setTws v).host = s.host := rfl
@[simp] theorem State.setTws_hostData (v : Byte) : (s.setTws v).hostData = s.hostData := rfl
@[simp] theorem State.setTws_pace (v : Byte) : (s.setTws v).pace = s.pace := rfl

/-! ### `State.setRdata` -/

@[simp] theorem State.setRdata_div (v : Byte) : (s.setRdata v).div = s.div := rfl
@[simp] theorem State.setRdata_ps (v : Byte) : (s.setRdata v).ps = s.ps := rfl
@[simp] theorem State.setRdata_configured (v : Byte) : (s.setRdata v).configured = s.configured := rfl
@[simp] theorem State.setRdata_held (v : Byte) : (s.setRdata v).held = s.held := rfl
@[simp] theorem State.setRdata_phase (v : Byte) : (s.setRdata v).phase = s.phase := rfl
@[simp] theorem State.setRdata_busy (v : Byte) : (s.setRdata v).busy = s.busy := rfl
@[simp] theorem State.setRdata_fault (v : Byte) : (s.setRdata v).fault = s.fault := rfl
@[simp] theorem State.setRdata_fcause (v : Byte) : (s.setRdata v).fcause = s.fcause := rfl
@[simp] theorem State.setRdata_result (v : Byte) : (s.setRdata v).result = s.result := rfl
@[simp] theorem State.setRdata_tws (v : Byte) : (s.setRdata v).tws = s.tws := rfl
@[simp] theorem State.setRdata_rdata (v : Byte) : (s.setRdata v).rdata = v := rfl
@[simp] theorem State.setRdata_bufptr (v : Byte) : (s.setRdata v).bufptr = s.bufptr := rfl
@[simp] theorem State.setRdata_stoPend (v : Byte) : (s.setRdata v).stoPend = s.stoPend := rfl
@[simp] theorem State.setRdata_run (v : Byte) : (s.setRdata v).run = s.run := rfl
@[simp] theorem State.setRdata_mem (v : Byte) : (s.setRdata v).mem = s.mem := rfl
@[simp] theorem State.setRdata_platform (v : Byte) : (s.setRdata v).platform = s.platform := rfl
@[simp] theorem State.setRdata_env (v : Byte) : (s.setRdata v).env = s.env := rfl
@[simp] theorem State.setRdata_picks (v : Byte) : (s.setRdata v).picks = s.picks := rfl
@[simp] theorem State.setRdata_trace (v : Byte) : (s.setRdata v).trace = s.trace := rfl
@[simp] theorem State.setRdata_unset (v : Byte) : (s.setRdata v).unset = { s.unset with rdata := false } := rfl
@[simp] theorem State.setRdata_draws (v : Byte) : (s.setRdata v).draws = s.draws := rfl
@[simp] theorem State.setRdata_host (v : Byte) : (s.setRdata v).host = s.host := rfl
@[simp] theorem State.setRdata_hostData (v : Byte) : (s.setRdata v).hostData = s.hostData := rfl
@[simp] theorem State.setRdata_pace (v : Byte) : (s.setRdata v).pace = s.pace := rfl

/-! ### `State.markConfigured` -/

@[simp] theorem State.markConfigured_div : (s.markConfigured).div = s.div := rfl
@[simp] theorem State.markConfigured_ps : (s.markConfigured).ps = s.ps := rfl
@[simp] theorem State.markConfigured_configured : (s.markConfigured).configured = true := rfl
@[simp] theorem State.markConfigured_held : (s.markConfigured).held = s.held := rfl
@[simp] theorem State.markConfigured_phase : (s.markConfigured).phase = s.phase := rfl
@[simp] theorem State.markConfigured_busy : (s.markConfigured).busy = s.busy := rfl
@[simp] theorem State.markConfigured_fault : (s.markConfigured).fault = s.fault := rfl
@[simp] theorem State.markConfigured_fcause : (s.markConfigured).fcause = s.fcause := rfl
@[simp] theorem State.markConfigured_result : (s.markConfigured).result = s.result := rfl
@[simp] theorem State.markConfigured_tws : (s.markConfigured).tws = s.tws := rfl
@[simp] theorem State.markConfigured_rdata : (s.markConfigured).rdata = s.rdata := rfl
@[simp] theorem State.markConfigured_bufptr : (s.markConfigured).bufptr = s.bufptr := rfl
@[simp] theorem State.markConfigured_stoPend : (s.markConfigured).stoPend = s.stoPend := rfl
@[simp] theorem State.markConfigured_run : (s.markConfigured).run = s.run := rfl
@[simp] theorem State.markConfigured_mem : (s.markConfigured).mem = s.mem := rfl
@[simp] theorem State.markConfigured_platform : (s.markConfigured).platform = s.platform := rfl
@[simp] theorem State.markConfigured_env : (s.markConfigured).env = s.env := rfl
@[simp] theorem State.markConfigured_picks : (s.markConfigured).picks = s.picks := rfl
@[simp] theorem State.markConfigured_trace : (s.markConfigured).trace = s.trace := rfl
@[simp] theorem State.markConfigured_unset : (s.markConfigured).unset = s.unset := rfl
@[simp] theorem State.markConfigured_draws : (s.markConfigured).draws = s.draws := rfl
@[simp] theorem State.markConfigured_host : (s.markConfigured).host = s.host := rfl
@[simp] theorem State.markConfigured_hostData : (s.markConfigured).hostData = s.hostData := rfl
@[simp] theorem State.markConfigured_pace : (s.markConfigured).pace = s.pace := rfl

/-! ### `State.setBufptr` -/

@[simp] theorem State.setBufptr_div (v : Addr) : (s.setBufptr v).div = s.div := rfl
@[simp] theorem State.setBufptr_ps (v : Addr) : (s.setBufptr v).ps = s.ps := rfl
@[simp] theorem State.setBufptr_configured (v : Addr) : (s.setBufptr v).configured = s.configured := rfl
@[simp] theorem State.setBufptr_held (v : Addr) : (s.setBufptr v).held = s.held := rfl
@[simp] theorem State.setBufptr_phase (v : Addr) : (s.setBufptr v).phase = s.phase := rfl
@[simp] theorem State.setBufptr_busy (v : Addr) : (s.setBufptr v).busy = s.busy := rfl
@[simp] theorem State.setBufptr_fault (v : Addr) : (s.setBufptr v).fault = s.fault := rfl
@[simp] theorem State.setBufptr_fcause (v : Addr) : (s.setBufptr v).fcause = s.fcause := rfl
@[simp] theorem State.setBufptr_result (v : Addr) : (s.setBufptr v).result = s.result := rfl
@[simp] theorem State.setBufptr_tws (v : Addr) : (s.setBufptr v).tws = s.tws := rfl
@[simp] theorem State.setBufptr_rdata (v : Addr) : (s.setBufptr v).rdata = s.rdata := rfl
@[simp] theorem State.setBufptr_bufptr (v : Addr) : (s.setBufptr v).bufptr = v := rfl
@[simp] theorem State.setBufptr_stoPend (v : Addr) : (s.setBufptr v).stoPend = s.stoPend := rfl
@[simp] theorem State.setBufptr_run (v : Addr) : (s.setBufptr v).run = s.run := rfl
@[simp] theorem State.setBufptr_mem (v : Addr) : (s.setBufptr v).mem = s.mem := rfl
@[simp] theorem State.setBufptr_platform (v : Addr) : (s.setBufptr v).platform = s.platform := rfl
@[simp] theorem State.setBufptr_env (v : Addr) : (s.setBufptr v).env = s.env := rfl
@[simp] theorem State.setBufptr_picks (v : Addr) : (s.setBufptr v).picks = s.picks := rfl
@[simp] theorem State.setBufptr_trace (v : Addr) : (s.setBufptr v).trace = s.trace := rfl
@[simp] theorem State.setBufptr_unset (v : Addr) : (s.setBufptr v).unset = { s.unset with bufptr := false } := rfl
@[simp] theorem State.setBufptr_draws (v : Addr) : (s.setBufptr v).draws = s.draws := rfl
@[simp] theorem State.setBufptr_host (v : Addr) : (s.setBufptr v).host = s.host := rfl
@[simp] theorem State.setBufptr_hostData (v : Addr) : (s.setBufptr v).hostData = s.hostData := rfl
@[simp] theorem State.setBufptr_pace (v : Addr) : (s.setBufptr v).pace = s.pace := rfl

/-! ### `State.drawn` -/

@[simp] theorem State.drawn_div : (s.drawn).div = s.div := rfl
@[simp] theorem State.drawn_ps : (s.drawn).ps = s.ps := rfl
@[simp] theorem State.drawn_configured : (s.drawn).configured = s.configured := rfl
@[simp] theorem State.drawn_held : (s.drawn).held = s.held := rfl
@[simp] theorem State.drawn_phase : (s.drawn).phase = s.phase := rfl
@[simp] theorem State.drawn_busy : (s.drawn).busy = s.busy := rfl
@[simp] theorem State.drawn_fault : (s.drawn).fault = s.fault := rfl
@[simp] theorem State.drawn_fcause : (s.drawn).fcause = s.fcause := rfl
@[simp] theorem State.drawn_result : (s.drawn).result = s.result := rfl
@[simp] theorem State.drawn_tws : (s.drawn).tws = s.tws := rfl
@[simp] theorem State.drawn_rdata : (s.drawn).rdata = s.rdata := rfl
@[simp] theorem State.drawn_bufptr : (s.drawn).bufptr = s.bufptr := rfl
@[simp] theorem State.drawn_stoPend : (s.drawn).stoPend = s.stoPend := rfl
@[simp] theorem State.drawn_run : (s.drawn).run = s.run := rfl
@[simp] theorem State.drawn_mem : (s.drawn).mem = s.mem := rfl
@[simp] theorem State.drawn_platform : (s.drawn).platform = s.platform := rfl
@[simp] theorem State.drawn_env : (s.drawn).env = s.env := rfl
@[simp] theorem State.drawn_picks : (s.drawn).picks = s.picks := rfl
@[simp] theorem State.drawn_trace : (s.drawn).trace = s.trace := rfl
@[simp] theorem State.drawn_unset : (s.drawn).unset = s.unset := rfl
@[simp] theorem State.drawn_draws : (s.drawn).draws = s.draws + 1 := rfl
@[simp] theorem State.drawn_host : (s.drawn).host = s.host := rfl
@[simp] theorem State.drawn_hostData : (s.drawn).hostData = s.hostData := rfl
@[simp] theorem State.drawn_pace : (s.drawn).pace = s.pace := rfl

/-! ### `State.setTodo` -/

@[simp] theorem State.setTodo_div (ts : List Task) : (s.setTodo ts).div = s.div := rfl
@[simp] theorem State.setTodo_ps (ts : List Task) : (s.setTodo ts).ps = s.ps := rfl
@[simp] theorem State.setTodo_configured (ts : List Task) : (s.setTodo ts).configured = s.configured := rfl
@[simp] theorem State.setTodo_held (ts : List Task) : (s.setTodo ts).held = s.held := rfl
@[simp] theorem State.setTodo_phase (ts : List Task) : (s.setTodo ts).phase = s.phase := rfl
@[simp] theorem State.setTodo_busy (ts : List Task) : (s.setTodo ts).busy = s.busy := rfl
@[simp] theorem State.setTodo_fault (ts : List Task) : (s.setTodo ts).fault = s.fault := rfl
@[simp] theorem State.setTodo_fcause (ts : List Task) : (s.setTodo ts).fcause = s.fcause := rfl
@[simp] theorem State.setTodo_result (ts : List Task) : (s.setTodo ts).result = s.result := rfl
@[simp] theorem State.setTodo_tws (ts : List Task) : (s.setTodo ts).tws = s.tws := rfl
@[simp] theorem State.setTodo_rdata (ts : List Task) : (s.setTodo ts).rdata = s.rdata := rfl
@[simp] theorem State.setTodo_bufptr (ts : List Task) : (s.setTodo ts).bufptr = s.bufptr := rfl
@[simp] theorem State.setTodo_stoPend (ts : List Task) : (s.setTodo ts).stoPend = s.stoPend := rfl
@[simp] theorem State.setTodo_run (ts : List Task) : (s.setTodo ts).run = { s.run with todo := ts } := rfl
@[simp] theorem State.setTodo_mem (ts : List Task) : (s.setTodo ts).mem = s.mem := rfl
@[simp] theorem State.setTodo_platform (ts : List Task) : (s.setTodo ts).platform = s.platform := rfl
@[simp] theorem State.setTodo_env (ts : List Task) : (s.setTodo ts).env = s.env := rfl
@[simp] theorem State.setTodo_picks (ts : List Task) : (s.setTodo ts).picks = s.picks := rfl
@[simp] theorem State.setTodo_trace (ts : List Task) : (s.setTodo ts).trace = s.trace := rfl
@[simp] theorem State.setTodo_unset (ts : List Task) : (s.setTodo ts).unset = s.unset := rfl
@[simp] theorem State.setTodo_draws (ts : List Task) : (s.setTodo ts).draws = s.draws := rfl
@[simp] theorem State.setTodo_host (ts : List Task) : (s.setTodo ts).host = s.host := rfl
@[simp] theorem State.setTodo_hostData (ts : List Task) : (s.setTodo ts).hostData = s.hostData := rfl
@[simp] theorem State.setTodo_pace (ts : List Task) : (s.setTodo ts).pace = s.pace := rfl

/-! ### `State.setStatus` -/

@[simp] theorem State.setStatus_div (c : StatusCode) : (s.setStatus c).div = s.div := rfl
@[simp] theorem State.setStatus_ps (c : StatusCode) : (s.setStatus c).ps = s.ps := rfl
@[simp] theorem State.setStatus_configured (c : StatusCode) : (s.setStatus c).configured = s.configured := rfl
@[simp] theorem State.setStatus_held (c : StatusCode) : (s.setStatus c).held = s.held := rfl
@[simp] theorem State.setStatus_phase (c : StatusCode) : (s.setStatus c).phase = s.phase := rfl
@[simp] theorem State.setStatus_busy (c : StatusCode) : (s.setStatus c).busy = s.busy := rfl
@[simp] theorem State.setStatus_fault (c : StatusCode) : (s.setStatus c).fault = s.fault := rfl
@[simp] theorem State.setStatus_fcause (c : StatusCode) : (s.setStatus c).fcause = s.fcause := rfl
@[simp] theorem State.setStatus_result (c : StatusCode) : (s.setStatus c).result = s.result := rfl
@[simp] theorem State.setStatus_tws (c : StatusCode) : (s.setStatus c).tws = s.tws := rfl
@[simp] theorem State.setStatus_rdata (c : StatusCode) : (s.setStatus c).rdata = s.rdata := rfl
@[simp] theorem State.setStatus_bufptr (c : StatusCode) : (s.setStatus c).bufptr = s.bufptr := rfl
@[simp] theorem State.setStatus_stoPend (c : StatusCode) : (s.setStatus c).stoPend = s.stoPend := rfl
@[simp] theorem State.setStatus_run (c : StatusCode) : (s.setStatus c).run = { s.run with st := c } := rfl
@[simp] theorem State.setStatus_mem (c : StatusCode) : (s.setStatus c).mem = s.mem := rfl
@[simp] theorem State.setStatus_platform (c : StatusCode) : (s.setStatus c).platform = s.platform := rfl
@[simp] theorem State.setStatus_env (c : StatusCode) : (s.setStatus c).env = s.env := rfl
@[simp] theorem State.setStatus_picks (c : StatusCode) : (s.setStatus c).picks = s.picks := rfl
@[simp] theorem State.setStatus_trace (c : StatusCode) : (s.setStatus c).trace = s.trace := rfl
@[simp] theorem State.setStatus_unset (c : StatusCode) : (s.setStatus c).unset = s.unset := rfl
@[simp] theorem State.setStatus_draws (c : StatusCode) : (s.setStatus c).draws = s.draws := rfl
@[simp] theorem State.setStatus_host (c : StatusCode) : (s.setStatus c).host = s.host := rfl
@[simp] theorem State.setStatus_hostData (c : StatusCode) : (s.setStatus c).hostData = s.hostData := rfl
@[simp] theorem State.setStatus_pace (c : StatusCode) : (s.setStatus c).pace = s.pace := rfl

/-! ### `State.setRx` -/

@[simp] theorem State.setRx_div (v : Byte) : (s.setRx v).div = s.div := rfl
@[simp] theorem State.setRx_ps (v : Byte) : (s.setRx v).ps = s.ps := rfl
@[simp] theorem State.setRx_configured (v : Byte) : (s.setRx v).configured = s.configured := rfl
@[simp] theorem State.setRx_held (v : Byte) : (s.setRx v).held = s.held := rfl
@[simp] theorem State.setRx_phase (v : Byte) : (s.setRx v).phase = s.phase := rfl
@[simp] theorem State.setRx_busy (v : Byte) : (s.setRx v).busy = s.busy := rfl
@[simp] theorem State.setRx_fault (v : Byte) : (s.setRx v).fault = s.fault := rfl
@[simp] theorem State.setRx_fcause (v : Byte) : (s.setRx v).fcause = s.fcause := rfl
@[simp] theorem State.setRx_result (v : Byte) : (s.setRx v).result = s.result := rfl
@[simp] theorem State.setRx_tws (v : Byte) : (s.setRx v).tws = s.tws := rfl
@[simp] theorem State.setRx_rdata (v : Byte) : (s.setRx v).rdata = s.rdata := rfl
@[simp] theorem State.setRx_bufptr (v : Byte) : (s.setRx v).bufptr = s.bufptr := rfl
@[simp] theorem State.setRx_stoPend (v : Byte) : (s.setRx v).stoPend = s.stoPend := rfl
@[simp] theorem State.setRx_run (v : Byte) : (s.setRx v).run = { s.run with rx := v } := rfl
@[simp] theorem State.setRx_mem (v : Byte) : (s.setRx v).mem = s.mem := rfl
@[simp] theorem State.setRx_platform (v : Byte) : (s.setRx v).platform = s.platform := rfl
@[simp] theorem State.setRx_env (v : Byte) : (s.setRx v).env = s.env := rfl
@[simp] theorem State.setRx_picks (v : Byte) : (s.setRx v).picks = s.picks := rfl
@[simp] theorem State.setRx_trace (v : Byte) : (s.setRx v).trace = s.trace := rfl
@[simp] theorem State.setRx_unset (v : Byte) : (s.setRx v).unset = s.unset := rfl
@[simp] theorem State.setRx_draws (v : Byte) : (s.setRx v).draws = s.draws := rfl
@[simp] theorem State.setRx_host (v : Byte) : (s.setRx v).host = s.host := rfl
@[simp] theorem State.setRx_hostData (v : Byte) : (s.setRx v).hostData = s.hostData := rfl
@[simp] theorem State.setRx_pace (v : Byte) : (s.setRx v).pace = s.pace := rfl

/-! ### `State.bumpIdx` -/

@[simp] theorem State.bumpIdx_div : (s.bumpIdx).div = s.div := rfl
@[simp] theorem State.bumpIdx_ps : (s.bumpIdx).ps = s.ps := rfl
@[simp] theorem State.bumpIdx_configured : (s.bumpIdx).configured = s.configured := rfl
@[simp] theorem State.bumpIdx_held : (s.bumpIdx).held = s.held := rfl
@[simp] theorem State.bumpIdx_phase : (s.bumpIdx).phase = s.phase := rfl
@[simp] theorem State.bumpIdx_busy : (s.bumpIdx).busy = s.busy := rfl
@[simp] theorem State.bumpIdx_fault : (s.bumpIdx).fault = s.fault := rfl
@[simp] theorem State.bumpIdx_fcause : (s.bumpIdx).fcause = s.fcause := rfl
@[simp] theorem State.bumpIdx_result : (s.bumpIdx).result = s.result := rfl
@[simp] theorem State.bumpIdx_tws : (s.bumpIdx).tws = s.tws := rfl
@[simp] theorem State.bumpIdx_rdata : (s.bumpIdx).rdata = s.rdata := rfl
@[simp] theorem State.bumpIdx_bufptr : (s.bumpIdx).bufptr = s.bufptr := rfl
@[simp] theorem State.bumpIdx_stoPend : (s.bumpIdx).stoPend = s.stoPend := rfl
@[simp] theorem State.bumpIdx_run : (s.bumpIdx).run = { s.run with idx := s.run.idx + 1 } := rfl
@[simp] theorem State.bumpIdx_mem : (s.bumpIdx).mem = s.mem := rfl
@[simp] theorem State.bumpIdx_platform : (s.bumpIdx).platform = s.platform := rfl
@[simp] theorem State.bumpIdx_env : (s.bumpIdx).env = s.env := rfl
@[simp] theorem State.bumpIdx_picks : (s.bumpIdx).picks = s.picks := rfl
@[simp] theorem State.bumpIdx_trace : (s.bumpIdx).trace = s.trace := rfl
@[simp] theorem State.bumpIdx_unset : (s.bumpIdx).unset = s.unset := rfl
@[simp] theorem State.bumpIdx_draws : (s.bumpIdx).draws = s.draws := rfl
@[simp] theorem State.bumpIdx_host : (s.bumpIdx).host = s.host := rfl
@[simp] theorem State.bumpIdx_hostData : (s.bumpIdx).hostData = s.hostData := rfl
@[simp] theorem State.bumpIdx_pace : (s.bumpIdx).pace = s.pace := rfl

/-! ### `State.countPoll` -/

@[simp] theorem State.countPoll_div : (s.countPoll).div = s.div := rfl
@[simp] theorem State.countPoll_ps : (s.countPoll).ps = s.ps := rfl
@[simp] theorem State.countPoll_configured : (s.countPoll).configured = s.configured := rfl
@[simp] theorem State.countPoll_held : (s.countPoll).held = s.held := rfl
@[simp] theorem State.countPoll_phase : (s.countPoll).phase = s.phase := rfl
@[simp] theorem State.countPoll_busy : (s.countPoll).busy = s.busy := rfl
@[simp] theorem State.countPoll_fault : (s.countPoll).fault = s.fault := rfl
@[simp] theorem State.countPoll_fcause : (s.countPoll).fcause = s.fcause := rfl
@[simp] theorem State.countPoll_result : (s.countPoll).result = s.result := rfl
@[simp] theorem State.countPoll_tws : (s.countPoll).tws = s.tws := rfl
@[simp] theorem State.countPoll_rdata : (s.countPoll).rdata = s.rdata := rfl
@[simp] theorem State.countPoll_bufptr : (s.countPoll).bufptr = s.bufptr := rfl
@[simp] theorem State.countPoll_stoPend : (s.countPoll).stoPend = s.stoPend := rfl
@[simp] theorem State.countPoll_run : (s.countPoll).run = { s.run with npoll := s.run.npoll + 1 } := rfl
@[simp] theorem State.countPoll_mem : (s.countPoll).mem = s.mem := rfl
@[simp] theorem State.countPoll_platform : (s.countPoll).platform = s.platform := rfl
@[simp] theorem State.countPoll_env : (s.countPoll).env = s.env := rfl
@[simp] theorem State.countPoll_picks : (s.countPoll).picks = s.picks := rfl
@[simp] theorem State.countPoll_trace : (s.countPoll).trace = s.trace := rfl
@[simp] theorem State.countPoll_unset : (s.countPoll).unset = s.unset := rfl
@[simp] theorem State.countPoll_draws : (s.countPoll).draws = s.draws := rfl
@[simp] theorem State.countPoll_host : (s.countPoll).host = s.host := rfl
@[simp] theorem State.countPoll_hostData : (s.countPoll).hostData = s.hostData := rfl
@[simp] theorem State.countPoll_pace : (s.countPoll).pace = s.pace := rfl

/-! ### `State.clearStop` -/

@[simp] theorem State.clearStop_div : (s.clearStop).div = s.div := rfl
@[simp] theorem State.clearStop_ps : (s.clearStop).ps = s.ps := rfl
@[simp] theorem State.clearStop_configured : (s.clearStop).configured = s.configured := rfl
@[simp] theorem State.clearStop_held : (s.clearStop).held = s.held := rfl
@[simp] theorem State.clearStop_phase : (s.clearStop).phase = s.phase := rfl
@[simp] theorem State.clearStop_busy : (s.clearStop).busy = s.busy := rfl
@[simp] theorem State.clearStop_fault : (s.clearStop).fault = s.fault := rfl
@[simp] theorem State.clearStop_fcause : (s.clearStop).fcause = s.fcause := rfl
@[simp] theorem State.clearStop_result : (s.clearStop).result = s.result := rfl
@[simp] theorem State.clearStop_tws : (s.clearStop).tws = s.tws := rfl
@[simp] theorem State.clearStop_rdata : (s.clearStop).rdata = s.rdata := rfl
@[simp] theorem State.clearStop_bufptr : (s.clearStop).bufptr = s.bufptr := rfl
@[simp] theorem State.clearStop_stoPend : (s.clearStop).stoPend = false := rfl
@[simp] theorem State.clearStop_run : (s.clearStop).run = s.run := rfl
@[simp] theorem State.clearStop_mem : (s.clearStop).mem = s.mem := rfl
@[simp] theorem State.clearStop_platform : (s.clearStop).platform = s.platform := rfl
@[simp] theorem State.clearStop_env : (s.clearStop).env = s.env := rfl
@[simp] theorem State.clearStop_picks : (s.clearStop).picks = s.picks := rfl
@[simp] theorem State.clearStop_trace : (s.clearStop).trace = s.trace := rfl
@[simp] theorem State.clearStop_unset : (s.clearStop).unset = s.unset := rfl
@[simp] theorem State.clearStop_draws : (s.clearStop).draws = s.draws := rfl
@[simp] theorem State.clearStop_host : (s.clearStop).host = s.host := rfl
@[simp] theorem State.clearStop_hostData : (s.clearStop).hostData = s.hostData := rfl
@[simp] theorem State.clearStop_pace : (s.clearStop).pace = s.pace := rfl

/-! ### `State.issue` -/

@[simp] theorem State.issue_div (op : BusOp) : (s.issue op).div = s.div := rfl
@[simp] theorem State.issue_ps (op : BusOp) : (s.issue op).ps = s.ps := rfl
@[simp] theorem State.issue_configured (op : BusOp) : (s.issue op).configured = s.configured := rfl
@[simp] theorem State.issue_held (op : BusOp) : (s.issue op).held = s.held := rfl
@[simp] theorem State.issue_phase (op : BusOp) : (s.issue op).phase = s.phase := rfl
@[simp] theorem State.issue_busy (op : BusOp) : (s.issue op).busy = s.busy := rfl
@[simp] theorem State.issue_fault (op : BusOp) : (s.issue op).fault = s.fault := rfl
@[simp] theorem State.issue_fcause (op : BusOp) : (s.issue op).fcause = s.fcause := rfl
@[simp] theorem State.issue_result (op : BusOp) : (s.issue op).result = s.result := rfl
@[simp] theorem State.issue_tws (op : BusOp) : (s.issue op).tws = s.tws := rfl
@[simp] theorem State.issue_rdata (op : BusOp) : (s.issue op).rdata = s.rdata := rfl
@[simp] theorem State.issue_bufptr (op : BusOp) : (s.issue op).bufptr = s.bufptr := rfl
@[simp] theorem State.issue_stoPend (op : BusOp) : (s.issue op).stoPend = (if op = .stopCond then true else s.stoPend) := rfl
@[simp] theorem State.issue_run (op : BusOp) : (s.issue op).run = { s.run with npoll := 0 } := rfl
@[simp] theorem State.issue_mem (op : BusOp) : (s.issue op).mem = s.mem := rfl
@[simp] theorem State.issue_platform (op : BusOp) : (s.issue op).platform = s.platform := rfl
@[simp] theorem State.issue_env (op : BusOp) : (s.issue op).env = s.env := rfl
@[simp] theorem State.issue_picks (op : BusOp) : (s.issue op).picks = s.picks := rfl
@[simp] theorem State.issue_trace (op : BusOp) : (s.issue op).trace = s.trace ++ [op] := rfl
@[simp] theorem State.issue_unset (op : BusOp) : (s.issue op).unset = s.unset := rfl
@[simp] theorem State.issue_draws (op : BusOp) : (s.issue op).draws = s.draws := rfl
@[simp] theorem State.issue_host (op : BusOp) : (s.issue op).host = s.host := rfl
@[simp] theorem State.issue_hostData (op : BusOp) : (s.issue op).hostData = s.hostData := rfl
@[simp] theorem State.issue_pace (op : BusOp) : (s.issue op).pace = s.pace := rfl

/-! ### `State.claimBus` -/

@[simp] theorem State.claimBus_div : (s.claimBus).div = s.div := rfl
@[simp] theorem State.claimBus_ps : (s.claimBus).ps = s.ps := rfl
@[simp] theorem State.claimBus_configured : (s.claimBus).configured = s.configured := rfl
@[simp] theorem State.claimBus_held : (s.claimBus).held = true := rfl
@[simp] theorem State.claimBus_phase : (s.claimBus).phase = (if s.held then .repeatedStart else .started) := rfl
@[simp] theorem State.claimBus_busy : (s.claimBus).busy = s.busy := rfl
@[simp] theorem State.claimBus_fault : (s.claimBus).fault = s.fault := rfl
@[simp] theorem State.claimBus_fcause : (s.claimBus).fcause = s.fcause := rfl
@[simp] theorem State.claimBus_result : (s.claimBus).result = s.result := rfl
@[simp] theorem State.claimBus_tws : (s.claimBus).tws = s.tws := rfl
@[simp] theorem State.claimBus_rdata : (s.claimBus).rdata = s.rdata := rfl
@[simp] theorem State.claimBus_bufptr : (s.claimBus).bufptr = s.bufptr := rfl
@[simp] theorem State.claimBus_stoPend : (s.claimBus).stoPend = false := rfl
@[simp] theorem State.claimBus_run : (s.claimBus).run = s.run := rfl
@[simp] theorem State.claimBus_mem : (s.claimBus).mem = s.mem := rfl
@[simp] theorem State.claimBus_platform : (s.claimBus).platform = s.platform := rfl
@[simp] theorem State.claimBus_env : (s.claimBus).env = s.env := rfl
@[simp] theorem State.claimBus_picks : (s.claimBus).picks = s.picks := rfl
@[simp] theorem State.claimBus_trace : (s.claimBus).trace = s.trace := rfl
@[simp] theorem State.claimBus_unset : (s.claimBus).unset = s.unset := rfl
@[simp] theorem State.claimBus_draws : (s.claimBus).draws = s.draws := rfl
@[simp] theorem State.claimBus_host : (s.claimBus).host = s.host := rfl
@[simp] theorem State.claimBus_hostData : (s.claimBus).hostData = s.hostData := rfl
@[simp] theorem State.claimBus_pace : (s.claimBus).pace = s.pace := rfl

/-! ### `State.releaseBus` -/

@[simp] theorem State.releaseBus_div : (s.releaseBus).div = s.div := rfl
@[simp] theorem State.releaseBus_ps : (s.releaseBus).ps = s.ps := rfl
@[simp] theorem State.releaseBus_configured : (s.releaseBus).configured = s.configured := rfl
@[simp] theorem State.releaseBus_held : (s.releaseBus).held = false := rfl
@[simp] theorem State.releaseBus_phase : (s.releaseBus).phase = .stopped := rfl
@[simp] theorem State.releaseBus_busy : (s.releaseBus).busy = s.busy := rfl
@[simp] theorem State.releaseBus_fault : (s.releaseBus).fault = s.fault := rfl
@[simp] theorem State.releaseBus_fcause : (s.releaseBus).fcause = s.fcause := rfl
@[simp] theorem State.releaseBus_result : (s.releaseBus).result = s.result := rfl
@[simp] theorem State.releaseBus_tws : (s.releaseBus).tws = s.tws := rfl
@[simp] theorem State.releaseBus_rdata : (s.releaseBus).rdata = s.rdata := rfl
@[simp] theorem State.releaseBus_bufptr : (s.releaseBus).bufptr = s.bufptr := rfl
@[simp] theorem State.releaseBus_stoPend : (s.releaseBus).stoPend = s.stoPend := rfl
@[simp] theorem State.releaseBus_run : (s.releaseBus).run = s.run := rfl
@[simp] theorem State.releaseBus_mem : (s.releaseBus).mem = s.mem := rfl
@[simp] theorem State.releaseBus_platform : (s.releaseBus).platform = s.platform := rfl
@[simp] theorem State.releaseBus_env : (s.releaseBus).env = s.env := rfl
@[simp] theorem State.releaseBus_picks : (s.releaseBus).picks = s.picks := rfl
@[simp] theorem State.releaseBus_trace : (s.releaseBus).trace = s.trace := rfl
@[simp] theorem State.releaseBus_unset : (s.releaseBus).unset = s.unset := rfl
@[simp] theorem State.releaseBus_draws : (s.releaseBus).draws = s.draws := rfl
@[simp] theorem State.releaseBus_host : (s.releaseBus).host = s.host := rfl
@[simp] theorem State.releaseBus_hostData : (s.releaseBus).hostData = s.hostData := rfl
@[simp] theorem State.releaseBus_pace : (s.releaseBus).pace = s.pace := rfl

/-! ### `State.enterPhase` -/

@[simp] theorem State.enterPhase_div (p : Phase) : (s.enterPhase p).div = s.div := rfl
@[simp] theorem State.enterPhase_ps (p : Phase) : (s.enterPhase p).ps = s.ps := rfl
@[simp] theorem State.enterPhase_configured (p : Phase) : (s.enterPhase p).configured = s.configured := rfl
@[simp] theorem State.enterPhase_held (p : Phase) : (s.enterPhase p).held = s.held := rfl
@[simp] theorem State.enterPhase_phase (p : Phase) : (s.enterPhase p).phase = p := rfl
@[simp] theorem State.enterPhase_busy (p : Phase) : (s.enterPhase p).busy = s.busy := rfl
@[simp] theorem State.enterPhase_fault (p : Phase) : (s.enterPhase p).fault = s.fault := rfl
@[simp] theorem State.enterPhase_fcause (p : Phase) : (s.enterPhase p).fcause = s.fcause := rfl
@[simp] theorem State.enterPhase_result (p : Phase) : (s.enterPhase p).result = s.result := rfl
@[simp] theorem State.enterPhase_tws (p : Phase) : (s.enterPhase p).tws = s.tws := rfl
@[simp] theorem State.enterPhase_rdata (p : Phase) : (s.enterPhase p).rdata = s.rdata := rfl
@[simp] theorem State.enterPhase_bufptr (p : Phase) : (s.enterPhase p).bufptr = s.bufptr := rfl
@[simp] theorem State.enterPhase_stoPend (p : Phase) : (s.enterPhase p).stoPend = s.stoPend := rfl
@[simp] theorem State.enterPhase_run (p : Phase) : (s.enterPhase p).run = s.run := rfl
@[simp] theorem State.enterPhase_mem (p : Phase) : (s.enterPhase p).mem = s.mem := rfl
@[simp] theorem State.enterPhase_platform (p : Phase) : (s.enterPhase p).platform = s.platform := rfl
@[simp] theorem State.enterPhase_env (p : Phase) : (s.enterPhase p).env = s.env := rfl
@[simp] theorem State.enterPhase_picks (p : Phase) : (s.enterPhase p).picks = s.picks := rfl
@[simp] theorem State.enterPhase_trace (p : Phase) : (s.enterPhase p).trace = s.trace := rfl
@[simp] theorem State.enterPhase_unset (p : Phase) : (s.enterPhase p).unset = s.unset := rfl
@[simp] theorem State.enterPhase_draws (p : Phase) : (s.enterPhase p).draws = s.draws := rfl
@[simp] theorem State.enterPhase_host (p : Phase) : (s.enterPhase p).host = s.host := rfl
@[simp] theorem State.enterPhase_hostData (p : Phase) : (s.enterPhase p).hostData = s.hostData := rfl
@[simp] theorem State.enterPhase_pace (p : Phase) : (s.enterPhase p).pace = s.pace := rfl

/-! ### `State.fail` -/

@[simp] theorem State.fail_div (c : StatusCode) (ts : List Task) : (s.fail c ts).div = s.div := rfl
@[simp] theorem State.fail_ps (c : StatusCode) (ts : List Task) : (s.fail c ts).ps = s.ps := rfl
@[simp] theorem State.fail_configured (c : StatusCode) (ts : List Task) : (s.fail c ts).configured = s.configured := rfl
@[simp] theorem State.fail_held (c : StatusCode) (ts : List Task) : (s.fail c ts).held = s.held := rfl
@[simp] theorem State.fail_phase (c : StatusCode) (ts : List Task) : (s.fail c ts).phase = s.phase := rfl
@[simp] theorem State.fail_busy (c : StatusCode) (ts : List Task) : (s.fail c ts).busy = s.busy := rfl
@[simp] theorem State.fail_fault (c : StatusCode) (ts : List Task) : (s.fail c ts).fault = s.fault := rfl
@[simp] theorem State.fail_fcause (c : StatusCode) (ts : List Task) : (s.fail c ts).fcause = s.fcause := rfl
@[simp] theorem State.fail_result (c : StatusCode) (ts : List Task) : (s.fail c ts).result = s.result := rfl
@[simp] theorem State.fail_tws (c : StatusCode) (ts : List Task) : (s.fail c ts).tws = s.tws := rfl
@[simp] theorem State.fail_rdata (c : StatusCode) (ts : List Task) : (s.fail c ts).rdata = s.rdata := rfl
@[simp] theorem State.fail_bufptr (c : StatusCode) (ts : List Task) : (s.fail c ts).bufptr = s.bufptr := rfl
@[simp] theorem State.fail_stoPend (c : StatusCode) (ts : List Task) : (s.fail c ts).stoPend = s.stoPend := rfl
@[simp] theorem State.fail_run (c : StatusCode) (ts : List Task) : (s.fail c ts).run = { s.run with st := c, todo := ts } := rfl
@[simp] theorem State.fail_mem (c : StatusCode) (ts : List Task) : (s.fail c ts).mem = s.mem := rfl
@[simp] theorem State.fail_platform (c : StatusCode) (ts : List Task) : (s.fail c ts).platform = s.platform := rfl
@[simp] theorem State.fail_env (c : StatusCode) (ts : List Task) : (s.fail c ts).env = s.env := rfl
@[simp] theorem State.fail_picks (c : StatusCode) (ts : List Task) : (s.fail c ts).picks = s.picks := rfl
@[simp] theorem State.fail_trace (c : StatusCode) (ts : List Task) : (s.fail c ts).trace = s.trace := rfl
@[simp] theorem State.fail_unset (c : StatusCode) (ts : List Task) : (s.fail c ts).unset = s.unset := rfl
@[simp] theorem State.fail_draws (c : StatusCode) (ts : List Task) : (s.fail c ts).draws = s.draws := rfl
@[simp] theorem State.fail_host (c : StatusCode) (ts : List Task) : (s.fail c ts).host = s.host := rfl
@[simp] theorem State.fail_hostData (c : StatusCode) (ts : List Task) : (s.fail c ts).hostData = s.hostData := rfl
@[simp] theorem State.fail_pace (c : StatusCode) (ts : List Task) : (s.fail c ts).pace = s.pace := rfl

/-! ### `State.latch` -/

@[simp] theorem State.latch_div (cmd : Instr) (ts : List Task) : (s.latch cmd ts).div = s.div := rfl
@[simp] theorem State.latch_ps (cmd : Instr) (ts : List Task) : (s.latch cmd ts).ps = s.ps := rfl
@[simp] theorem State.latch_configured (cmd : Instr) (ts : List Task) : (s.latch cmd ts).configured = s.configured := rfl
@[simp] theorem State.latch_held (cmd : Instr) (ts : List Task) : (s.latch cmd ts).held = s.held := rfl
@[simp] theorem State.latch_phase (cmd : Instr) (ts : List Task) : (s.latch cmd ts).phase = s.phase := rfl
@[simp] theorem State.latch_busy (cmd : Instr) (ts : List Task) : (s.latch cmd ts).busy = true := rfl
@[simp] theorem State.latch_fault (cmd : Instr) (ts : List Task) : (s.latch cmd ts).fault = s.fault := rfl
@[simp] theorem State.latch_fcause (cmd : Instr) (ts : List Task) : (s.latch cmd ts).fcause = s.fcause := rfl
@[simp] theorem State.latch_result (cmd : Instr) (ts : List Task) : (s.latch cmd ts).result = s.result := rfl
@[simp] theorem State.latch_tws (cmd : Instr) (ts : List Task) : (s.latch cmd ts).tws = s.tws := rfl
@[simp] theorem State.latch_rdata (cmd : Instr) (ts : List Task) : (s.latch cmd ts).rdata = s.rdata := rfl
@[simp] theorem State.latch_bufptr (cmd : Instr) (ts : List Task) : (s.latch cmd ts).bufptr = s.bufptr := rfl
@[simp] theorem State.latch_stoPend (cmd : Instr) (ts : List Task) : (s.latch cmd ts).stoPend = s.stoPend := rfl
@[simp] theorem State.latch_run (cmd : Instr) (ts : List Task) : (s.latch cmd ts).run = { s.run with cmd := cmd, idx := 0, st := .ok, todo := ts, olds := [] } := rfl
@[simp] theorem State.latch_mem (cmd : Instr) (ts : List Task) : (s.latch cmd ts).mem = s.mem := rfl
@[simp] theorem State.latch_platform (cmd : Instr) (ts : List Task) : (s.latch cmd ts).platform = s.platform := rfl
@[simp] theorem State.latch_env (cmd : Instr) (ts : List Task) : (s.latch cmd ts).env = s.env := rfl
@[simp] theorem State.latch_picks (cmd : Instr) (ts : List Task) : (s.latch cmd ts).picks = s.picks := rfl
@[simp] theorem State.latch_trace (cmd : Instr) (ts : List Task) : (s.latch cmd ts).trace = s.trace := rfl
@[simp] theorem State.latch_unset (cmd : Instr) (ts : List Task) : (s.latch cmd ts).unset = s.unset := rfl
@[simp] theorem State.latch_draws (cmd : Instr) (ts : List Task) : (s.latch cmd ts).draws = s.draws := rfl
@[simp] theorem State.latch_host (cmd : Instr) (ts : List Task) : (s.latch cmd ts).host = s.host := rfl
@[simp] theorem State.latch_hostData (cmd : Instr) (ts : List Task) : (s.latch cmd ts).hostData = s.hostData := rfl
@[simp] theorem State.latch_pace (cmd : Instr) (ts : List Task) : (s.latch cmd ts).pace = s.pace := rfl

/-! ### `State.noteOld` -/

@[simp] theorem State.noteOld_div (a : Nat) : (s.noteOld a).div = s.div := rfl
@[simp] theorem State.noteOld_ps (a : Nat) : (s.noteOld a).ps = s.ps := rfl
@[simp] theorem State.noteOld_configured (a : Nat) : (s.noteOld a).configured = s.configured := rfl
@[simp] theorem State.noteOld_held (a : Nat) : (s.noteOld a).held = s.held := rfl
@[simp] theorem State.noteOld_phase (a : Nat) : (s.noteOld a).phase = s.phase := rfl
@[simp] theorem State.noteOld_busy (a : Nat) : (s.noteOld a).busy = s.busy := rfl
@[simp] theorem State.noteOld_fault (a : Nat) : (s.noteOld a).fault = s.fault := rfl
@[simp] theorem State.noteOld_fcause (a : Nat) : (s.noteOld a).fcause = s.fcause := rfl
@[simp] theorem State.noteOld_result (a : Nat) : (s.noteOld a).result = s.result := rfl
@[simp] theorem State.noteOld_tws (a : Nat) : (s.noteOld a).tws = s.tws := rfl
@[simp] theorem State.noteOld_rdata (a : Nat) : (s.noteOld a).rdata = s.rdata := rfl
@[simp] theorem State.noteOld_bufptr (a : Nat) : (s.noteOld a).bufptr = s.bufptr := rfl
@[simp] theorem State.noteOld_stoPend (a : Nat) : (s.noteOld a).stoPend = s.stoPend := rfl
@[simp] theorem State.noteOld_run (a : Nat) : (s.noteOld a).run = { s.run with olds := (a, s.mem.read a) :: s.run.olds } := rfl
@[simp] theorem State.noteOld_mem (a : Nat) : (s.noteOld a).mem = s.mem := rfl
@[simp] theorem State.noteOld_platform (a : Nat) : (s.noteOld a).platform = s.platform := rfl
@[simp] theorem State.noteOld_env (a : Nat) : (s.noteOld a).env = s.env := rfl
@[simp] theorem State.noteOld_picks (a : Nat) : (s.noteOld a).picks = s.picks := rfl
@[simp] theorem State.noteOld_trace (a : Nat) : (s.noteOld a).trace = s.trace := rfl
@[simp] theorem State.noteOld_unset (a : Nat) : (s.noteOld a).unset = s.unset := rfl
@[simp] theorem State.noteOld_draws (a : Nat) : (s.noteOld a).draws = s.draws := rfl
@[simp] theorem State.noteOld_host (a : Nat) : (s.noteOld a).host = s.host := rfl
@[simp] theorem State.noteOld_hostData (a : Nat) : (s.noteOld a).hostData = s.hostData := rfl
@[simp] theorem State.noteOld_pace (a : Nat) : (s.noteOld a).pace = s.pace := rfl

/-! ### `State.answered`: BusEnv's next answer is used up, from the script or from the free draws -/

@[simp] theorem State.answered_div : s.answered.div = s.div := by
  unfold State.answered; split <;> rfl
@[simp] theorem State.answered_ps : s.answered.ps = s.ps := by
  unfold State.answered; split <;> rfl
@[simp] theorem State.answered_configured : s.answered.configured = s.configured := by
  unfold State.answered; split <;> rfl
@[simp] theorem State.answered_held : s.answered.held = s.held := by
  unfold State.answered; split <;> rfl
@[simp] theorem State.answered_phase : s.answered.phase = s.phase := by
  unfold State.answered; split <;> rfl
@[simp] theorem State.answered_busy : s.answered.busy = s.busy := by
  unfold State.answered; split <;> rfl
@[simp] theorem State.answered_fault : s.answered.fault = s.fault := by
  unfold State.answered; split <;> rfl
@[simp] theorem State.answered_fcause : s.answered.fcause = s.fcause := by
  unfold State.answered; split <;> rfl
@[simp] theorem State.answered_result : s.answered.result = s.result := by
  unfold State.answered; split <;> rfl
@[simp] theorem State.answered_tws : s.answered.tws = s.tws := by
  unfold State.answered; split <;> rfl
@[simp] theorem State.answered_rdata : s.answered.rdata = s.rdata := by
  unfold State.answered; split <;> rfl
@[simp] theorem State.answered_bufptr : s.answered.bufptr = s.bufptr := by
  unfold State.answered; split <;> rfl
@[simp] theorem State.answered_stoPend : s.answered.stoPend = s.stoPend := by
  unfold State.answered; split <;> rfl
@[simp] theorem State.answered_run : s.answered.run = s.run := by
  unfold State.answered; split <;> rfl
@[simp] theorem State.answered_mem : s.answered.mem = s.mem := by
  unfold State.answered; split <;> rfl
@[simp] theorem State.answered_platform : s.answered.platform = s.platform := by
  unfold State.answered; split <;> rfl
@[simp] theorem State.answered_picks : s.answered.picks = s.picks := by
  unfold State.answered; split <;> rfl
@[simp] theorem State.answered_trace : s.answered.trace = s.trace := by
  unfold State.answered; split <;> rfl
@[simp] theorem State.answered_unset : s.answered.unset = s.unset := by
  unfold State.answered; split <;> rfl
@[simp] theorem State.answered_host : s.answered.host = s.host := by
  unfold State.answered; split <;> rfl
@[simp] theorem State.answered_hostData : s.answered.hostData = s.hostData := by
  unfold State.answered; split <;> rfl
@[simp] theorem State.answered_pace : s.answered.pace = s.pace := by
  unfold State.answered; split <;> rfl

/-! ### `State.bufptrRead` -/

@[simp] theorem State.bufptrRead_div : s.bufptrRead.div = s.div := by
  unfold State.bufptrRead; split <;> rfl
@[simp] theorem State.bufptrRead_ps : s.bufptrRead.ps = s.ps := by
  unfold State.bufptrRead; split <;> rfl
@[simp] theorem State.bufptrRead_configured : s.bufptrRead.configured = s.configured := by
  unfold State.bufptrRead; split <;> rfl
@[simp] theorem State.bufptrRead_held : s.bufptrRead.held = s.held := by
  unfold State.bufptrRead; split <;> rfl
@[simp] theorem State.bufptrRead_phase : s.bufptrRead.phase = s.phase := by
  unfold State.bufptrRead; split <;> rfl
@[simp] theorem State.bufptrRead_busy : s.bufptrRead.busy = s.busy := by
  unfold State.bufptrRead; split <;> rfl
@[simp] theorem State.bufptrRead_fault : s.bufptrRead.fault = s.fault := by
  unfold State.bufptrRead; split <;> rfl
@[simp] theorem State.bufptrRead_fcause : s.bufptrRead.fcause = s.fcause := by
  unfold State.bufptrRead; split <;> rfl
@[simp] theorem State.bufptrRead_result : s.bufptrRead.result = s.result := by
  unfold State.bufptrRead; split <;> rfl
@[simp] theorem State.bufptrRead_tws : s.bufptrRead.tws = s.tws := by
  unfold State.bufptrRead; split <;> rfl
@[simp] theorem State.bufptrRead_rdata : s.bufptrRead.rdata = s.rdata := by
  unfold State.bufptrRead; split <;> rfl
@[simp] theorem State.bufptrRead_bufptr : s.bufptrRead.bufptr = s.bufptr := by
  unfold State.bufptrRead; split <;> rfl
@[simp] theorem State.bufptrRead_stoPend : s.bufptrRead.stoPend = s.stoPend := by
  unfold State.bufptrRead; split <;> rfl
@[simp] theorem State.bufptrRead_run : s.bufptrRead.run = s.run := by
  unfold State.bufptrRead; split <;> rfl
@[simp] theorem State.bufptrRead_mem : s.bufptrRead.mem = s.mem := by
  unfold State.bufptrRead; split <;> rfl
@[simp] theorem State.bufptrRead_platform : s.bufptrRead.platform = s.platform := by
  unfold State.bufptrRead; split <;> rfl
@[simp] theorem State.bufptrRead_env : s.bufptrRead.env = s.env := by
  unfold State.bufptrRead; split <;> rfl
@[simp] theorem State.bufptrRead_picks : s.bufptrRead.picks = s.picks := by
  unfold State.bufptrRead; split <;> rfl
@[simp] theorem State.bufptrRead_trace : s.bufptrRead.trace = s.trace := by
  unfold State.bufptrRead; split <;> rfl
@[simp] theorem State.bufptrRead_unset : s.bufptrRead.unset = s.unset := by
  unfold State.bufptrRead; split <;> rfl
@[simp] theorem State.bufptrRead_host : s.bufptrRead.host = s.host := by
  unfold State.bufptrRead; split <;> rfl
@[simp] theorem State.bufptrRead_hostData : s.bufptrRead.hostData = s.hostData := by
  unfold State.bufptrRead; split <;> rfl
@[simp] theorem State.bufptrRead_pace : s.bufptrRead.pace = s.pace := by
  unfold State.bufptrRead; split <;> rfl

/-! ### `State.picked` -/

@[simp] theorem State.picked_div : s.picked.div = s.div := by
  unfold State.picked; split <;> rfl
@[simp] theorem State.picked_ps : s.picked.ps = s.ps := by
  unfold State.picked; split <;> rfl
@[simp] theorem State.picked_configured : s.picked.configured = s.configured := by
  unfold State.picked; split <;> rfl
@[simp] theorem State.picked_held : s.picked.held = s.held := by
  unfold State.picked; split <;> rfl
@[simp] theorem State.picked_phase : s.picked.phase = s.phase := by
  unfold State.picked; split <;> rfl
@[simp] theorem State.picked_busy : s.picked.busy = s.busy := by
  unfold State.picked; split <;> rfl
@[simp] theorem State.picked_fault : s.picked.fault = s.fault := by
  unfold State.picked; split <;> rfl
@[simp] theorem State.picked_fcause : s.picked.fcause = s.fcause := by
  unfold State.picked; split <;> rfl
@[simp] theorem State.picked_result : s.picked.result = s.result := by
  unfold State.picked; split <;> rfl
@[simp] theorem State.picked_tws : s.picked.tws = s.tws := by
  unfold State.picked; split <;> rfl
@[simp] theorem State.picked_rdata : s.picked.rdata = s.rdata := by
  unfold State.picked; split <;> rfl
@[simp] theorem State.picked_bufptr : s.picked.bufptr = s.bufptr := by
  unfold State.picked; split <;> rfl
@[simp] theorem State.picked_stoPend : s.picked.stoPend = s.stoPend := by
  unfold State.picked; split <;> rfl
@[simp] theorem State.picked_run : s.picked.run = s.run := by
  unfold State.picked; split <;> rfl
@[simp] theorem State.picked_mem : s.picked.mem = s.mem := by
  unfold State.picked; split <;> rfl
@[simp] theorem State.picked_platform : s.picked.platform = s.platform := by
  unfold State.picked; split <;> rfl
@[simp] theorem State.picked_env : s.picked.env = s.env := by
  unfold State.picked; split <;> rfl
@[simp] theorem State.picked_trace : s.picked.trace = s.trace := by
  unfold State.picked; split <;> rfl
@[simp] theorem State.picked_unset : s.picked.unset = s.unset := by
  unfold State.picked; split <;> rfl
@[simp] theorem State.picked_host : s.picked.host = s.host := by
  unfold State.picked; split <;> rfl
@[simp] theorem State.picked_hostData : s.picked.hostData = s.hostData := by
  unfold State.picked; split <;> rfl
@[simp] theorem State.picked_pace : s.picked.pace = s.pace := by
  unfold State.picked; split <;> rfl

end Sys2Proof.Machine
end

