-- ==== Sys2Proof/Laws/Acceptance.lean ====
section
/-! SUPPORT. What issuing a command can do (spec 60_exceptions.md R201), said once. -/

namespace Sys2Proof.Machine

/-- What a state looks like when a command is latched: as before, or with LBUF taken from BUFPTR. -/
def State.Offered (s u : State) : Prop :=
  u = s ∨ u = { s.bufptrRead with run := { s.run with lbuf := s.bufptrNow } }

/-- Everything a command can come to: dropped, refused with a fault that is not F_BUF_ACCESS, or accepted,
latched and run. -/
def Issued (i : Instr) (s t : State) : Prop :=
  (s.fault = true ∧ t = s) ∨
  (s.fault = false ∧ ∃ c, c ≠ .bufAccess ∧ c ≠ .none ∧ (t = s.raise c ∨ t = s.bufptrRead.raise c)) ∨
  (s.Ready ∧ refusedBy i s = none ∧
    ∃ u, s.Offered u ∧ t = (u.latch i (commandBody i)).runBlock u.pace)

/-- The first two checks of `Accept`: what is left is a command on a ready block. -/
theorem State.screen_issued {i : Instr} {s : State} {k : State → State}
    (h : s.Ready → Issued i s (k s)) : Issued i s (s.screen k) := by
  unfold State.screen
  split
  · rename_i hf; exact .inl ⟨hf, rfl⟩
  · rename_i hf
    split
    · exact .inr (.inl ⟨by simpa using hf, .busy, by decide, by decide, .inl rfl⟩)
    · rename_i hb; exact h ⟨by simpa using hf, by simpa using hb⟩

theorem issued_raise {i : Instr} {s : State} (h : s.Ready) {c : Cause} (hc : c ≠ .bufAccess)
    (hn : c ≠ .none) : Issued i s (s.raise c) := .inr (.inl ⟨h.1, c, hc, hn, .inl rfl⟩)

theorem issued_launch {i : Instr} {s : State} (h : s.Ready) (hr : refusedBy i s = none) :
    Issued i s (s.launch i (commandBody i)) := .inr (.inr ⟨h, hr, s, .inl rfl, rfl⟩)

/-- Every command needs its checks passed in turn: this is the part after the first two. -/
theorem State.whenConfigured_issued {i : Instr} {s : State} {k : State → State} (h : s.Ready)
    (hk : s.configured = true → Issued i s (k s)) : Issued i s (s.whenConfigured k) := by
  unfold State.whenConfigured
  split
  · rename_i hc; exact hk hc
  · exact issued_raise h (by decide) (by decide)

theorem State.whenHeld_issued {i : Instr} {s : State} {k : State → State} (h : s.Ready)
    (hk : s.held = true → Issued i s (k s)) : Issued i s (s.whenHeld k) := by
  unfold State.whenHeld
  split
  · rename_i hc; exact hk hc
  · exact issued_raise h (by decide) (by decide)

theorem State.withBuffer_issued {i : Instr} {s : State} {len : BitVec 8} (h : s.Ready)
    (hk : s.bufptrNow.toNat + len.toNat ≤ 65536 → refusedBy i s = none) :
    Issued i s (s.withBuffer len fun u => u.launch i (commandBody i)) := by
  unfold State.withBuffer
  split
  · rename_i hc; exact .inr (.inr ⟨h, hk hc, _, .inr rfl, rfl⟩)
  · exact .inr (.inl ⟨h.1, .bufRange, by decide, by decide, .inr rfl⟩)

/-- A command always has a next state, and it is one of `Issued`. -/
theorem exec_issued (i : Instr) (s : State) : ∃ t, exec i s = .next t ∧ Issued i s t := by
  cases i with
  | init rate =>
    refine ⟨_, rfl, State.screen_issued fun h => ?_⟩
    split
    · exact issued_raise h (by decide) (by decide)
    · rename_i hr; exact issued_launch h (if_neg hr)
  | start a =>
    exact ⟨_, rfl, State.screen_issued fun h => State.whenConfigured_issued h fun hc =>
      issued_launch h (by simp [refusedBy, hc])⟩
  | stop =>
    exact ⟨_, rfl, State.screen_issued fun h => State.whenConfigured_issued h fun hc =>
      issued_launch h (by simp [refusedBy, hc])⟩
  | write b =>
    exact ⟨_, rfl, State.screen_issued fun h => State.whenConfigured_issued h fun hc =>
      State.whenHeld_issued h fun hh => issued_launch h (by simp [refusedBy, hc, hh])⟩
  | read ack =>
    exact ⟨_, rfl, State.screen_issued fun h => State.whenConfigured_issued h fun hc =>
      State.whenHeld_issued h fun hh => issued_launch h (by simp [refusedBy, hc, hh])⟩
  | wrbuf dev sub len =>
    exact ⟨_, rfl, State.screen_issued fun h => State.whenConfigured_issued h fun hc =>
      State.withBuffer_issued h fun hb => by simp [refusedBy, hc, hb]⟩
  | wrsingle dev sub b =>
    exact ⟨_, rfl, State.screen_issued fun h => State.whenConfigured_issued h fun hc =>
      issued_launch h (by simp [refusedBy, hc])⟩
  | rdbuf dev sub len =>
    exact ⟨_, rfl, State.screen_issued fun h => State.whenConfigured_issued h fun hc =>
      State.withBuffer_issued h fun hb => by simp [refusedBy, hc, hb]⟩

end Sys2Proof.Machine
end

