-- ==== Sys2Proof/Laws/Encoding.lean ====
section
/-! SUPPORT. The bit fields as numbers: a command word is its six fields (spec 30_encoding.md R71), and the
address byte is `dev * 2 + d` (00_scope.md R12). -/

namespace Sys2Proof

/-- The number a word of six fields stands for. -/
theorem Fields.toNat_toWord (f : Fields) :
    f.toWord.toNat = ((((f.op.toNat * 8 + f.rsv.toNat) * 2 + f.k.toNat) * 256 + f.a.toNat) * 256 +
      f.b.toNat) * 256 + f.c.toNat := by
  have app : ∀ {m n : Nat} (x : BitVec m) (y : BitVec n),
      (x ++ y).toNat = x.toNat * 2 ^ n + y.toNat := by
    intro m n x y
    rw [BitVec.toNat_append, Nat.shiftLeft_eq, Nat.mul_comm]
    exact (Nat.two_pow_add_eq_or_of_lt y.isLt x.toNat).symm
  unfold Fields.toWord
  refine (app _ _).trans ?_
  refine congrArg (· * 2 ^ 8 + f.c.toNat) ((app _ _).trans ?_)
  refine congrArg (· * 2 ^ 8 + f.b.toNat) ((app _ _).trans ?_)
  refine congrArg (· * 2 ^ 8 + f.a.toNat) ((app _ _).trans ?_)
  exact congrArg (· * 2 ^ 1 + f.k.toNat) (app _ _)

theorem extract_toNat (w : Word) (lo n : Nat) :
    (w.extractLsb' lo n).toNat = w.toNat / 2 ^ lo % 2 ^ n := by
  rw [BitVec.extractLsb'_toNat, Nat.shiftRight_eq_div_pow]

/-- Cutting the fields out of the word of six fields gives them back. -/
theorem Fields.ofWord_toWord (f : Fields) : Fields.ofWord f.toWord = f := by
  have h := f.toNat_toWord
  have h1 := f.op.isLt
  have h2 := f.rsv.isLt
  have h3 := f.k.isLt
  have h4 := f.a.isLt
  have h5 := f.b.isLt
  have h6 := f.c.isLt
  cases f
  simp only [Fields.ofWord, Fields.mk.injEq]
  refine ⟨?_, ?_, ?_, ?_, ?_, ?_⟩ <;> apply BitVec.eq_of_toNat_eq <;> rw [extract_toNat, h] <;>
    simp only at h1 h2 h3 h4 h5 h6 ⊢ <;> omega

/-- A word is the word of the fields cut out of it. -/
theorem Fields.toWord_ofWord (w : Word) : (Fields.ofWord w).toWord = w := by
  apply BitVec.eq_of_toNat_eq
  rw [Fields.toNat_toWord]
  simp only [Fields.ofWord, extract_toNat]
  have := w.isLt
  omega

/-- The address byte as a number. -/
theorem Machine.sla_toNat (dev : BitVec 7) (d : Bool) :
    (Machine.sla dev d).toNat = dev.toNat * 2 + d.toNat := by
  have h : (dev ++ BitVec.ofBool d).toNat = dev.toNat * 2 + d.toNat := by
    rw [BitVec.toNat_append, Nat.shiftLeft_eq, Nat.mul_comm]
    rw [← Nat.two_pow_add_eq_or_of_lt (i := 1) (BitVec.ofBool d).isLt dev.toNat]
    cases d <;> simp
  exact h

end Sys2Proof
end

