-- ==== Sys2Proof/Laws/Memory.lean ====
section
/-! SUPPORT. The laws of buffer memory: a read after a write, and that every operation keeps the
canonical form. -/

namespace Sys2Proof.Machine

theorem Memory.read_cons (k a : Nat) (w : Byte) (m : Memory) :
    Memory.read ((k, w) :: m) a = if k = a then w else Memory.read m a := rfl

/-- Below the first listed address nothing is listed. -/
theorem Memory.read_of_lt {m : Memory} {a : Nat} (h : ∀ c ∈ m, a < c.1) :
    Memory.read m a = Config.unlistedByte := by
  induction m with
  | nil => rfl
  | cons c m ih =>
    obtain ⟨k, w⟩ := c
    have hk : a < k := h (k, w) (by simp)
    rw [Memory.read_cons, if_neg (by omega), ih fun c hc => h c (by simp [hc])]

theorem Memory.read_consByte {m : Memory} {a b : Nat} {v : Byte} (h : ∀ c ∈ m, a < c.1) :
    Memory.read (Memory.cons a v m) b = if a = b then v else Memory.read m b := by
  unfold Memory.cons
  split
  · rename_i hv
    split
    · rename_i hab; rw [← hab, Memory.read_of_lt h, hv]
    · rfl
  · rw [Memory.read_cons]

theorem Memory.wf_tail {c : Host.Cell} {m : Memory} (h : Memory.Wf (c :: m)) :
    Memory.Wf m ∧ ∀ d ∈ m, c.1 < d.1 := by
  obtain ⟨hp, hc⟩ := h
  rw [List.pairwise_cons] at hp
  exact ⟨⟨hp.2, fun d hd => hc d (by simp [hd])⟩, hp.1⟩

/-- A read after a write: the byte written at its address, every other byte as before. -/
theorem Memory.read_write {m : Memory} (h : Memory.Wf m) (a b : Nat) (v : Byte) :
    Memory.read (Memory.write m a v) b = if a = b then v else Memory.read m b := by
  induction m with
  | nil => exact Memory.read_consByte (by simp)
  | cons c m ih =>
    obtain ⟨k, w⟩ := c
    obtain ⟨hm, hk⟩ := Memory.wf_tail h
    unfold Memory.write
    split
    · rename_i hak
      refine Memory.read_consByte fun c hc => ?_
      rcases List.mem_cons.1 hc with rfl | hc
      · exact hak
      · exact lt_trans hak (hk c hc)
    · split
      · rename_i hak
        subst hak
        rw [Memory.read_consByte fun c hc => hk c hc, Memory.read_cons]
        split <;> rfl
      · rw [Memory.read_cons, Memory.read_cons, ih hm]
        split
        · rename_i hkb; rw [if_neg (by omega)]
        · rfl

theorem Memory.mem_cons {m : Memory} {a : Nat} {v : Byte} {c : Host.Cell}
    (h : c ∈ Memory.cons a v m) : c ∈ m ∨ (c = (a, v) ∧ v ≠ Config.unlistedByte) := by
  unfold Memory.cons at h
  split at h
  · exact .inl h
  · rename_i hv
    rcases List.mem_cons.1 h with h | h
    · exact .inr ⟨h, hv⟩
    · exact .inl h

theorem Memory.wf_cons {m : Memory} {a : Nat} {v : Byte} (h : Memory.Wf m)
    (ha : a < Config.bufSpace) (hlt : ∀ c ∈ m, a < c.1) : Memory.Wf (Memory.cons a v m) := by
  refine ⟨?_, fun c hc => ?_⟩
  · unfold Memory.cons
    split
    · exact h.1
    · exact List.pairwise_cons.2 ⟨hlt, h.1⟩
  · rcases Memory.mem_cons hc with hc | ⟨rfl, hv⟩
    · exact h.2 c hc
    · exact ⟨ha, hv⟩

theorem Memory.mem_write {m : Memory} {a : Nat} {v : Byte} {c : Host.Cell}
    (h : c ∈ Memory.write m a v) : c ∈ m ∨ (c = (a, v) ∧ v ≠ Config.unlistedByte) := by
  induction m with
  | nil => exact Memory.mem_cons h
  | cons d m ih =>
    obtain ⟨k, w⟩ := d
    unfold Memory.write at h
    split at h
    · exact Memory.mem_cons h
    · split at h
      · rcases Memory.mem_cons h with h | h
        · exact .inl (by simp [h])
        · exact .inr h
      · rcases List.mem_cons.1 h with h | h
        · exact .inl (by simp [h])
        · rcases ih h with h | h
          · exact .inl (by simp [h])
          · exact .inr h

/-- A write inside the buffer space keeps the canonical form. -/
theorem Memory.wf_write {m : Memory} (h : Memory.Wf m) {a : Nat} (ha : a < Config.bufSpace)
    (v : Byte) : Memory.Wf (Memory.write m a v) := by
  induction m with
  | nil => exact Memory.wf_cons ⟨List.Pairwise.nil, by simp⟩ ha (by simp)
  | cons c m ih =>
    obtain ⟨k, w⟩ := c
    obtain ⟨hm, hk⟩ := Memory.wf_tail h
    unfold Memory.write
    split
    · rename_i hak
      refine Memory.wf_cons h ha fun c hc => ?_
      rcases List.mem_cons.1 hc with rfl | hc
      · exact hak
      · exact lt_trans hak (hk c hc)
    · split
      · rename_i hak
        subst hak
        exact Memory.wf_cons hm ha hk
      · refine ⟨List.pairwise_cons.2 ⟨fun c hc => ?_, (ih hm).1⟩, fun c hc => ?_⟩
        · rcases Memory.mem_write hc with hc | ⟨rfl, -⟩
          · exact hk c hc
          · show k < a; omega
        · rcases List.mem_cons.1 hc with rfl | hc
          · exact h.2 _ (by simp)
          · exact (ih hm).2 c hc

/-- The memory after reset has the canonical form. -/
theorem State.reset_mem_wf : State.reset.mem.Wf := by decide

/-- `MemWrite` (20_memory.md R53) changes one byte of an admitted address, and nothing else. -/
theorem State.memWrite_cases {s t : State} {a : Nat} {v : Byte} (h : s.memWrite a v = some t) :
    s.admitsWrite a = true ∧ a < Config.bufSpace ∧ t = { s with mem := s.mem.write a v } := by
  unfold State.memWrite at h
  split at h
  · rename_i hw
    have : a < Config.bufSpace := by
      unfold State.admitsWrite at hw; simp only [Bool.and_eq_true, decide_eq_true_eq] at hw; exact hw.1
    exact ⟨hw, this, (Option.some.inj h).symm⟩
  · cases h

/-- Where nothing has overwritten a byte while the command runs, an access in a race gets the byte there. -/
theorem State.racedByte_exact {s : State} {a : Nat} (h : s.run.earlier a = []) :
    s.racedByte a = (s.mem.read a, s) := by
  unfold State.racedByte; rw [h]

/-- An access in a race gets the byte there or one it held before, and uses up at most a choice
(20_memory.md R61). -/
theorem State.racedByte_cases (s : State) (a : Nat) :
    (s.racedByte a).1 ∈ s.mem.read a :: s.run.earlier a ∧
    ((s.racedByte a).2 = s ∨ (s.racedByte a).2 = s.picked) := by
  unfold State.racedByte
  split
  · rename_i h; exact ⟨by simp, .inl rfl⟩
  · rename_i o os h
    refine ⟨?_, .inr rfl⟩
    rw [h]
    have hlt : s.pick % (os.length + 2) < (s.mem.read a :: o :: os).length :=
      Nat.mod_lt s.pick (by simp)
    dsimp only
    rw [List.getD_eq_getElem _ _ hlt]
    exact List.getElem_mem hlt

/-- `MemRead` (20_memory.md R52) of an admitted address is `racedByte`. -/
theorem State.memRead_cases {s : State} {a : Nat} {r : Byte × State} (h : s.memRead a = some r) :
    s.admitsRead a = true ∧ r = s.racedByte a := by
  unfold State.memRead at h
  split at h
  · rename_i hr; exact ⟨hr, (Option.some.inj h).symm⟩
  · cases h

end Sys2Proof.Machine
end

