-- ==== Sys2Proof/Laws/HostPort.lean ====
section
/-! SUPPORT. What one host access can do (spec 20_memory.md R56 to R58, R61), said once. -/

namespace Sys2Proof.Machine

/-- An access to the register block is one to an offset from REG_BASE (20_memory.md R56, R57). -/
theorem State.regAccess_at (s : State) (bytes off : Nat)
    (k : Nat → Host.Outcome State Fault Refusal) :
    s.regAccess bytes (s.platform.regBase + off) k =
      if wordAccess bytes off then k off else .refused (.hostAccess bytes off) := by
  simp [State.regAccess, State.regOffset]

/-- An access below REG_BASE is not to this block. -/
theorem State.regAccess_below {s : State} {bytes addr : Nat}
    {k : Nat → Host.Outcome State Fault Refusal} (h : addr < s.platform.regBase) :
    s.regAccess bytes addr k = .refused (.otherUnit bytes addr) := by
  simp [State.regAccess, State.regOffset, Nat.not_le.2 h]

/-- The step of a register read. -/
theorem step_read {s : State} {rest : List HostAct} {off : Nat} (h : off % 4 = 0)
    (hh : s.host = .read 4 (s.platform.regBase + off) :: rest) :
    step s = .next (({ s with host := rest } : State).hostRead off) := by
  unfold step; rw [hh]
  exact (State.regAccess_at { s with host := rest } 4 off _).trans
    (if_pos (by simp [wordAccess, h]))

/-- The step of a register write: a command at offset 0, else `hostWrite`. -/
theorem step_write {s : State} {rest : List HostAct} {off : Nat} {v : Word} (h : off % 4 = 0)
    (hh : s.host = .write 4 (s.platform.regBase + off) v :: rest) :
    step s = if off = 0 then accept v { s with host := rest }
      else .next (({ s with host := rest } : State).hostWrite off v) := by
  unfold step; rw [hh]
  exact (State.regAccess_at { s with host := rest } 4 off _).trans
    (if_pos (by simp [wordAccess, h]))

/-- A host write to the buffer writes its byte, and at most notes what it overwrote. -/
theorem State.hostBufWrite_cases (a : Nat) (v : Byte) (s : State) :
    (s.hostBufWrite a v = { s with mem := s.mem.write a v } ∧
      (s.busy = false ∨ s.run.inBuffer a = false)) ∨
    (s.hostBufWrite a v = { s.noteOld a with mem := s.mem.write a v } ∧ s.busy = true ∧
      s.run.inBuffer a = true) := by
  unfold State.hostBufWrite
  cases hb : s.busy <;> cases hi : s.run.inBuffer a <;> simp [hb]

/-- A host read of the buffer returns the byte there, or, in a race with RDBUF, what `racedByte` gives. -/
theorem State.hostBufRead_cases (a : Nat) (s : State) :
    (s.hostBufRead a = { s with hostData := (s.mem.read a).setWidth 32 } ∧
      (s.busy = false ∨ fillsBuffer s.run.cmd = false)) ∨
    (s.hostBufRead a = { (s.racedByte a).2 with hostData := (s.racedByte a).1.setWidth 32 } ∧
      s.busy = true ∧ fillsBuffer s.run.cmd = true) := by
  unfold State.hostBufRead
  cases hb : s.busy <;> cases hi : fillsBuffer s.run.cmd <;> simp [hb]

end Sys2Proof.Machine
end

