-- ==== Sys2Proof/Laws/PerInstr.lean ====
section
/-! SUPPORT. Statements for all commands, one lemma per constructor. `Legal`: the fields a command is
written with keep every "must be 0" of the opcode map (spec 30_encoding.md R73). -/

namespace Sys2Proof.Laws.Legal

/-- The command is well formed: the opcode map admits the fields it is written with. -/
def Statement (i : Instr) : Prop := i.wellFormed = true

/-- A 7-bit device address leaves A[7] = 0 (30_encoding.md R72). -/
theorem dev_top (dev : BitVec 7) : (dev.setWidth 8).getLsbD 7 = false := by
  rw [BitVec.getLsbD_setWidth, BitVec.getLsbD_of_ge _ _ (by omega), Bool.and_false]

theorem init (rate : BitVec 8) : Statement (.init rate) := rfl

theorem start (sla : BitVec 8) : Statement (.start sla) := rfl

theorem stop : Statement .stop := rfl

theorem write (byte : BitVec 8) : Statement (.write byte) := rfl

theorem read (ack : Bool) : Statement (.read ack) := rfl

theorem wrbuf (dev : BitVec 7) (sub len : BitVec 8) : Statement (.wrbuf dev sub len) := by
  show (!(dev.setWidth 8).getLsbD 7) = true
  rw [dev_top]; rfl

theorem wrsingle (dev : BitVec 7) (sub byte : BitVec 8) : Statement (.wrsingle dev sub byte) := by
  show (!(dev.setWidth 8).getLsbD 7) = true
  rw [dev_top]; rfl

theorem rdbuf (dev : BitVec 7) (sub len : BitVec 8) : Statement (.rdbuf dev sub len) := by
  show (!(dev.setWidth 8).getLsbD 7) = true
  rw [dev_top]; rfl

end Sys2Proof.Laws.Legal
end

