-- ==== Sys2Proof/Laws/Sequencer.lean ====
section
/-! SUPPORT. What a poll, one point of a command and a run of the block can do, said once. -/

namespace Sys2Proof.Machine

/-! ## A poll (41_phase_primitives.md R121, R123) -/

/-- A poll answered NotYet only counts, and gives up only under a limit it has reached. -/
theorem State.notYet_cases (s : State) :
    (s.notYet = (.pending, s.countPoll) ∧ waitAllowed s.platform (s.run.npoll + 1)) ∨
    (s.notYet = (.expired, s.countPoll) ∧ ¬ waitAllowed s.platform (s.run.npoll + 1)) := by
  unfold State.notYet waitAllowed
  cases h : s.platform.pollLimit with
  | none => simp
  | some l =>
    by_cases hl : l ≤ s.run.npoll + 1 <;> simp [hl]
    omega

/-- Everything a poll of a `StartCond`, `Tx` or `Rx` can come to. -/
theorem State.poll_cases (s : State) :
    (∃ st d, s.answer = .done st d ∧ s.poll = (.done d, s.answered.setTws st)) ∨
    (s.answer = .notYet ∧ s.poll = (.pending, s.answered.countPoll) ∧
      waitAllowed s.platform (s.run.npoll + 1)) ∨
    (s.answer = .notYet ∧ s.poll = (.expired, s.answered.countPoll) ∧
      ¬ waitAllowed s.platform (s.run.npoll + 1)) := by
  unfold State.poll
  cases h : s.answer with
  | done st d => exact .inl ⟨st, d, rfl, rfl⟩
  | notYet =>
    rcases s.answered.notYet_cases with ⟨h1, h2⟩ | ⟨h1, h2⟩
    · exact .inr (.inl ⟨rfl, h1, by simpa using h2⟩)
    · exact .inr (.inr ⟨rfl, h1, by simpa using h2⟩)

/-- BusEnv's move before a poll of a `StopCond` uses up an answer and may clear STO_PEND. -/
theorem State.stopMove_cases (s : State) :
    s.stopMove = s.answered ∨ s.stopMove = s.answered.clearStop := by
  unfold State.stopMove; split
  · exact .inl rfl
  · exact .inr rfl

/-- Everything a poll of a `StopCond` can come to. -/
theorem State.pollStop_cases (s : State) :
    (s.pollStop = (.done 0, s.stopMove) ∧ s.stopMove.stoPend = false) ∨
    (s.pollStop = (.pending, s.stopMove.countPoll)) ∨
    (s.pollStop = (.expired, s.stopMove.countPoll) ∧
      ¬ waitAllowed s.platform (s.run.npoll + 1)) := by
  unfold State.pollStop
  cases h : s.stopMove.stoPend with
  | false => exact .inl ⟨by simp, rfl⟩
  | true =>
    rcases s.stopMove.notYet_cases with ⟨h1, -⟩ | ⟨h1, h2⟩
    · exact .inr (.inl (by simpa using h1))
    · refine .inr (.inr ⟨by simpa using h1, ?_⟩)
      rcases s.stopMove_cases with e | e <;> rw [e] at h2 <;> simpa using h2

/-! ## Running the block -/

@[simp] theorem State.runBlock_zero (s : State) : s.runBlock 0 = s := rfl

theorem State.runBlock_succ (n : Nat) (s : State) (h : s.busy = true) :
    s.runBlock (n + 1) = s.micro.runBlock n := by
  rw [State.runBlock, if_pos h]

/-- A block with no command does nothing (70_reset_and_hazards.md R231). -/
theorem State.runBlock_idle (n : Nat) (s : State) (h : s.busy = false) : s.runBlock n = s := by
  cases n with
  | zero => rfl
  | succ n => rw [State.runBlock, if_neg (by simp [h])]

theorem State.runBlock_add (m n : Nat) (s : State) :
    s.runBlock (m + n) = (s.runBlock m).runBlock n := by
  induction m generalizing s with
  | zero => simp
  | succ m ih =>
    cases h : s.busy with
    | false => rw [State.runBlock_idle _ s h, State.runBlock_idle _ s h, State.runBlock_idle _ s h]
    | true => rw [Nat.add_right_comm, State.runBlock_succ _ s h, State.runBlock_succ _ s h, ih]

/-- What every point of a running command keeps, a run keeps. -/
theorem State.runBlock_keeps {P : State → Prop} (h : ∀ s, s.busy = true → P s → P s.micro)
    (n : Nat) (s : State) (hs : P s) : P (s.runBlock n) := by
  induction n generalizing s with
  | zero => exact hs
  | succ n ih =>
    cases hb : s.busy with
    | false => rwa [State.runBlock_idle _ s hb]
    | true => rw [State.runBlock_succ _ s hb]; exact ih _ (h s hb hs)

theorem State.micro_nil {s : State} (h : s.run.todo = []) : s.micro = { s with busy := false } := by
  unfold State.micro; rw [h]

theorem State.micro_cons {s : State} {t : Task} {ts : List Task} (h : s.run.todo = t :: ts) :
    s.micro = s.taskStep t ts := by
  unfold State.micro; rw [h]

/-! ## What no point of a command changes -/

/-- The fields a command's points never write: BUFPTR (10_state.md R31), the platform, the host's side
of the port, and the granularity. -/
structure SameSurroundings (s t : State) : Prop where
  bufptr : t.bufptr = s.bufptr
  bufptrUnset : t.unset.bufptr = s.unset.bufptr
  platform : t.platform = s.platform
  host : t.host = s.host
  hostData : t.hostData = s.hostData
  pace : t.pace = s.pace

theorem SameSurroundings.refl (s : State) : SameSurroundings s s := ⟨rfl, rfl, rfl, rfl, rfl, rfl⟩

theorem SameSurroundings.trans {s t u : State} (h : SameSurroundings s t)
    (k : SameSurroundings t u) : SameSurroundings s u :=
  ⟨k.1.trans h.1, k.2.trans h.2, k.3.trans h.3, k.4.trans h.4, k.5.trans h.5, k.6.trans h.6⟩

theorem State.raise_surroundings (c : Cause) (s : State) : SameSurroundings s (s.raise c) := by
  unfold State.raise; constructor <;> (dsimp only; split <;> split <;> rfl)

theorem State.poll_surroundings (s : State) : SameSurroundings s s.poll.2 := by
  rcases s.poll_cases with ⟨st, d, -, h⟩ | ⟨-, h, -⟩ | ⟨-, h, -⟩ <;> rw [h] <;>
    constructor <;> simp

theorem State.pollStop_surroundings (s : State) : SameSurroundings s s.pollStop.2 := by
  rcases s.pollStop_cases with ⟨h, -⟩ | h | ⟨h, -⟩ <;> rw [h] <;>
    rcases s.stopMove_cases with e | e <;> rw [e] <;> constructor <;> simp

theorem State.taskStep_surroundings (t : Task) (ts : List Task) (s : State) :
    SameSurroundings s (s.taskStep t ts) := by
  have hp := s.poll_surroundings
  have hq := s.pollStop_surroundings
  cases t <;> simp only [State.taskStep]
  case config => constructor <;> rfl
  case configured => constructor <;> rfl
  case start => unfold State.startStep State.whenOk; split <;> constructor <;> rfl
  case startPoll =>
    unfold State.startPollStep; revert hp; generalize s.poll = r
    rcases r with ⟨p, u⟩; intro hp
    cases p <;> simp only
    · exact hp
    · exact hp.trans (by constructor <;> rfl)
    · split <;> exact hp.trans (by constructor <;> rfl)
  case addrPoll =>
    unfold State.addrPollStep; revert hp; generalize s.poll = r
    rcases r with ⟨p, u⟩; intro hp
    cases p <;> simp only
    · exact hp
    all_goals exact hp.trans (by constructor <;> rfl)
  case addrDone => unfold State.addrDoneStep; split <;> constructor <;> rfl
  case stop => unfold State.stopStep; split <;> constructor <;> rfl
  case stopPoll =>
    unfold State.stopPollStep; revert hq; generalize s.pollStop = r
    rcases r with ⟨p, u⟩; intro hq
    cases p <;> simp only
    · exact hq
    all_goals exact hq.trans (by constructor <;> rfl)
  case write => unfold State.writeStep State.whenOk; split <;> constructor <;> rfl
  case writePoll =>
    unfold State.writePollStep; revert hp; generalize s.poll = r
    rcases r with ⟨p, u⟩; intro hp
    cases p <;> simp only
    · exact hp
    all_goals exact hp.trans (by constructor <;> rfl)
  case writeDone => unfold State.writeDoneStep; split <;> constructor <;> rfl
  case read => unfold State.readStep State.whenOk; split <;> constructor <;> rfl
  case readPoll =>
    unfold State.readPollStep; revert hp; generalize s.poll = r
    rcases r with ⟨p, u⟩; intro hp
    cases p <;> simp only
    · exact hp
    all_goals exact hp.trans (by constructor <;> rfl)
  case readDone => constructor <;> rfl
  case readEnd => unfold State.readEndStep; split <;> constructor <;> rfl
  case sendLoop =>
    unfold State.sendLoopStep; split
    · split
      · rename_i b u hu
        obtain ⟨-, hr⟩ := State.memRead_cases hu
        rcases (s.racedByte_cases s.run.addr).2 with e | e <;> rw [← hr] at e <;>
          (simp only at e; rw [e]; constructor <;> simp)
      · exact s.raise_surroundings _
    · constructor <;> rfl
  case sendNext => constructor <;> rfl
  case recvLoop => unfold State.recvLoopStep; split <;> constructor <;> rfl
  case store =>
    unfold State.storeStep State.whenOk; split
    · split
      · rename_i u hu
        obtain ⟨-, -, rfl⟩ := State.memWrite_cases hu
        dsimp only; split <;> constructor <;> rfl
      · exact s.raise_surroundings _
    · constructor <;> rfl
  case result => constructor <;> rfl

theorem State.micro_surroundings (s : State) : SameSurroundings s s.micro := by
  unfold State.micro; split
  · constructor <;> rfl
  · exact s.taskStep_surroundings _ _

/-- A run of the block leaves BUFPTR, the platform and the host's side of the port as they were. -/
theorem State.runBlock_surroundings (n : Nat) (s : State) : SameSurroundings s (s.runBlock n) :=
  State.runBlock_keeps (P := SameSurroundings s) (fun t _ h => h.trans t.micro_surroundings) n s
    (.refl s)

end Sys2Proof.Machine
end

