-- ==== Sys2Proof/Laws/Primitives.lean ====
section
/-! SUPPORT. What each primitive of spec 41_phase_primitives.md comes to inside a running command, said
once: the state after as many points as it takes, however long BusEnv takes within the poll limit, and the
state after an operation that expires. -/

namespace Sys2Proof.Machine

/-- Running the block for `k` points from `s` leads to `t`. -/
def Goes (k : Nat) (s t : State) : Prop := ∀ m, s.runBlock (k + m) = t.runBlock m

theorem Goes.zero (s : State) : Goes 0 s s := fun m => by rw [Nat.zero_add]

theorem Goes.trans {j k : Nat} {s t u : State} (h : Goes j s t) (g : Goes k t u) :
    Goes (j + k) s u := fun m => by rw [Nat.add_assoc, h, g]

/-- A command that has ended stays ended, however many points are left. -/
theorem Goes.ended {k n : Nat} {s t : State} (h : Goes k s t) (hb : t.busy = false) (hk : k ≤ n) :
    s.runBlock n = t := by
  obtain ⟨m, rfl⟩ := Nat.exists_eq_add_of_le hk
  rw [h, State.runBlock_idle _ _ hb]

/-- One point. -/
theorem Goes.point {s : State} {t : Task} {ts : List Task} (hb : s.busy = true)
    (ht : s.run.todo = t :: ts) : Goes 1 s (s.taskStep t ts) := fun m => by
  rw [Nat.add_comm, State.runBlock_succ _ _ hb, State.micro_cons ht]

/-- The end of a body (60_exceptions.md R201). -/
theorem Goes.finish {s : State} (hb : s.busy = true) (ht : s.run.todo = []) :
    Goes 1 s { s with busy := false } := fun m => by
  rw [Nat.add_comm, State.runBlock_succ _ _ hb, State.micro_nil ht]

/-! ## Polls -/

theorem State.poll_done {s : State} {st d : Byte} {rest : List BusAnswer}
    (h : s.env = .done st d :: rest) :
    s.poll = (.done d, { s with
      env := rest, tws := st, unset := { s.unset with tws := false } }) := by
  unfold State.poll State.answer State.answered
  rw [h]; rfl

theorem State.pollStop_done {s : State} {st d : Byte} {rest : List BusAnswer}
    (h : s.env = .done st d :: rest) :
    s.pollStop = (.done 0, { s with env := rest, stoPend := false }) := by
  unfold State.pollStop State.stopMove State.answer State.answered
  rw [h]; rfl

theorem State.notYet_waits {s : State} (h : waitAllowed s.platform (s.run.npoll + 1)) :
    s.notYet = (.pending, s.countPoll) := by
  rcases s.notYet_cases with ⟨e, -⟩ | ⟨-, k⟩
  · exact e
  · exact absurd h k

theorem State.poll_waits {s : State} {rest : List BusAnswer} (h : s.env = .notYet :: rest)
    (hl : waitAllowed s.platform (s.run.npoll + 1)) :
    s.poll = (.pending, { s with env := rest, run := { s.run with npoll := s.run.npoll + 1 } }) := by
  unfold State.poll State.answer State.answered
  rw [h]; exact State.notYet_waits hl

theorem State.pollStop_waits {s : State} {rest : List BusAnswer} (h : s.env = .notYet :: rest)
    (hs : s.stoPend = true) (hl : waitAllowed s.platform (s.run.npoll + 1)) :
    s.pollStop =
      (.pending, { s with env := rest, run := { s.run with npoll := s.run.npoll + 1 } }) := by
  unfold State.pollStop State.stopMove State.answer State.answered
  rw [h]; simp only [hs, if_true]; exact State.notYet_waits hl

/-! ## The calls of the primitives -/

section
variable {s : State} {ts : List Task} {rest : List BusAnswer}

/-- `PrimStop` while the bus is not held: no bus action (R130). -/
theorem goes_stop_free (hb : s.busy = true) (ht : s.run.todo = .stop :: ts)
    (hh : s.held = false) : Goes 1 s (s.setTodo ts) := by
  have h := Goes.point hb ht
  simpa [State.taskStep, State.stopStep, hh] using h

/-- A primitive called after a failed status does nothing (42_buffered_operations.md R180). -/
theorem goes_skip (hb : s.busy = true) {t : Task} (ht : s.run.todo = t :: ts)
    (hs : s.run.st ≠ .ok)
    (hk : (∃ a, t = .start a) ∨ (∃ b, t = .write b) ∨ (∃ k, t = .read k) ∨ t = .store ∨
      t = .sendLoop ∨ t = .recvLoop) :
    Goes 1 s (s.setTodo ts) := by
  have h := Goes.point hb ht
  rcases hk with ⟨a, rfl⟩ | ⟨b, rfl⟩ | ⟨k, rfl⟩ | rfl | rfl | rfl <;>
    simpa [State.taskStep, State.startStep, State.writeStep, State.readStep, State.storeStep,
      State.sendLoopStep, State.recvLoopStep, State.whenOk, hs] using h

/-- Inside an `Await` with no poll counted yet, the polls answered NotYet before the Done only count
(41_phase_primitives.md R121). -/
theorem goes_wait {t : Task} {n : Nat} {e : List BusAnswer} (hb : s.busy = true)
    (ht : s.run.todo = t :: ts) (hw : t.waiting = true ∨ (t = .stopPoll ∧ s.stoPend = true))
    (he : s.env = List.replicate n .notYet ++ e) (hl : waitAllowed s.platform (s.run.npoll + n)) :
    Goes n s { s with env := e, run := { s.run with npoll := s.run.npoll + n } } := by
  induction n generalizing s with
  | zero => simp only [List.replicate_zero, List.nil_append] at he; subst he; exact Goes.zero s
  | succ n ih =>
    rw [List.replicate_succ, List.cons_append] at he
    have h1 : waitAllowed s.platform (s.run.npoll + 1) := fun l h => by have := hl l h; omega
    have g := Goes.point hb ht
    have hm : s.taskStep t ts =
        { s with
          env := List.replicate n .notYet ++ e, run := { s.run with npoll := s.run.npoll + 1 } } := by
      rcases hw with hw | ⟨rfl, hp⟩
      · cases t <;> simp only [Task.waiting, Bool.false_eq_true] at hw <;>
          simp only [State.taskStep, State.startPollStep, State.addrPollStep, State.writePollStep,
            State.readPollStep, State.poll_waits he h1]
      · simp only [State.taskStep, State.stopPollStep, State.pollStop_waits he hp h1]
    rw [hm] at g
    have k := ih (s := { s with
      env := List.replicate n .notYet ++ e, run := { s.run with npoll := s.run.npoll + 1 } })
      hb ht hw rfl (fun l h => by have := hl l h; simp only; omega)
    have := g.trans k
    simpa [Nat.add_comm, Nat.add_assoc, Nat.add_left_comm] using this

/-- `PrimStop` while the bus is held (R130). -/
theorem goes_stop_held (hb : s.busy = true) (ht : s.run.todo = .stop :: ts) (hh : s.held = true)
    {n : Nat} {st d : Byte} (he : s.env = replies n st d rest) (hl : waitAllowed s.platform n) :
    Goes (n + 2) s { s with
      held := false, phase := .stopped, stoPend := false, trace := s.trace ++ [.stopCond], env := rest
      run := { s.run with npoll := n, todo := ts } } := by
  have h := Goes.point hb ht
  simp only [State.taskStep, State.stopStep, hh, if_true] at h
  have w := goes_wait (s := (s.issue .stopCond).setTodo (.stopPoll :: ts)) hb rfl
    (.inr ⟨rfl, rfl⟩) he (by simpa using hl)
  have g := Goes.point (s := { (s.issue .stopCond).setTodo (.stopPoll :: ts) with
    env := .done st d :: rest
    run := { ((s.issue .stopCond).setTodo (.stopPoll :: ts)).run with npoll := 0 + n } }) hb rfl
  simp only [State.taskStep, State.stopPollStep] at g
  rw [State.pollStop_done rfl] at g
  have := (h.trans w).trans g
  simpa [Nat.add_comm, Nat.add_assoc, Nat.add_left_comm, State.setTodo, State.issue,
    State.releaseBus] using this

/-- `PrimStart` up to the check of its start condition: BusEnv has answered (R125). -/
theorem goes_start_answered {a : Byte} (hb : s.busy = true) (ht : s.run.todo = .start a :: ts)
    (hs : s.run.st = .ok) {n : Nat} {st d : Byte} (he : s.env = replies n st d rest)
    (hl : waitAllowed s.platform n) :
    Goes (n + 2) s (State.startPollStep a ts { s with
      held := true, phase := if s.held then .repeatedStart else .started, stoPend := false
      trace := s.trace ++ [.startCond], env := .done st d :: rest
      run := { s.run with npoll := n, todo := .startPoll a :: ts } }) := by
  have h := Goes.point hb ht
  simp only [State.taskStep, State.startStep, State.whenOk, hs, if_true] at h
  have w := goes_wait (s := (s.claimBus.issue .startCond).setTodo (.startPoll a :: ts)) hb rfl
    (.inl rfl) he (by simpa using hl)
  have g := Goes.point (s := { s with
      held := true, phase := if s.held then .repeatedStart else .started, stoPend := false
      trace := s.trace ++ [.startCond], env := .done st d :: rest
      run := { s.run with npoll := n, todo := .startPoll a :: ts } }) hb rfl
  have := (h.trans w).trans (by
    simpa [State.setTodo, State.issue, State.claimBus, State.taskStep] using g)
  simpa [Nat.add_comm, Nat.add_assoc, Nat.add_left_comm] using this

/-- `PrimStart` whose start condition is not accepted (R126). -/
theorem goes_start_bad {a : Byte} (hb : s.busy = true) (ht : s.run.todo = .start a :: ts)
    (hs : s.run.st = .ok) {n : Nat} {st d : Byte} (he : s.env = replies n st d rest)
    (hl : waitAllowed s.platform n) (hg : st ∉ s.platform.startBytes) :
    Goes (n + 2) s { s with
      held := true, phase := if s.held then .repeatedStart else .started, stoPend := false
      tws := st, trace := s.trace ++ [.startCond], env := rest
      unset := { s.unset with tws := false }
      run := { s.run with npoll := n, st := .badStart, todo := ts } } := by
  have h := goes_start_answered hb ht hs he hl
  unfold State.startPollStep at h
  rw [State.poll_done rfl] at h
  simpa [State.startAccepted, hg, State.fail, State.setTodo, State.setStatus] using h

/-- `PrimStart` whose start condition is accepted, up to the wait for its address status (R125). -/
theorem goes_start_sent {a : Byte} (hb : s.busy = true) (ht : s.run.todo = .start a :: ts)
    (hs : s.run.st = .ok) {n : Nat} {st d : Byte} (he : s.env = replies n st d rest)
    (hl : waitAllowed s.platform n) (hg : st ∈ s.platform.startBytes) :
    Goes (n + 2) s { s with
      held := true, phase := if s.held then .repeatedStart else .started, stoPend := false
      tws := st, trace := s.trace ++ [.startCond, .tx a], env := rest
      unset := { s.unset with tws := false }
      run := { s.run with npoll := 0, todo := .addrPoll a :: ts } } := by
  have h := goes_start_answered hb ht hs he hl
  unfold State.startPollStep at h
  rw [State.poll_done rfl] at h
  simpa [State.startAccepted, hg, State.setTodo, State.issue] using h

/-- `PrimStart` whose start condition is accepted, up to the check of its address status (R125). -/
theorem goes_start_accepted {a : Byte} (hb : s.busy = true) (ht : s.run.todo = .start a :: ts)
    (hs : s.run.st = .ok) {n n' : Nat} {st d st' d' : Byte}
    (he : s.env = replies n st d (replies n' st' d' rest))
    (hl : waitAllowed s.platform n) (hl' : waitAllowed s.platform n')
    (hg : st ∈ s.platform.startBytes) :
    Goes (n + n' + 3) s { s with
      held := true, phase := if s.held then .repeatedStart else .started, stoPend := false
      tws := st', trace := s.trace ++ [.startCond, .tx a], env := rest
      unset := { s.unset with tws := false }
      run := { s.run with npoll := n', todo := .addrDone a :: ts } } := by
  have h := goes_start_sent hb ht hs he hl hg
  have w := h.trans (goes_wait hb rfl (.inl rfl) rfl (by simpa using hl'))
  have g := w.trans (Goes.point hb rfl)
  simp only [State.taskStep, State.addrPollStep] at g
  rw [State.poll_done (rest := rest) (st := st') (d := d') rfl] at g
  have e : n + 2 + n' + 1 = n + n' + 3 := by omega
  rw [e] at g
  simpa [State.setTodo] using g

/-- `PrimStart` whose address byte is acknowledged (R125, R126). -/
theorem goes_start_ok {a : Byte} (hb : s.busy = true) (ht : s.run.todo = .start a :: ts)
    (hs : s.run.st = .ok) {n n' : Nat} {st d st' d' : Byte}
    (he : s.env = replies n st d (replies n' st' d' rest))
    (hl : waitAllowed s.platform n) (hl' : waitAllowed s.platform n')
    (hg : st ∈ s.platform.startBytes) (ha : ackedAddress st') :
    Goes (n + n' + 4) s { s with
      held := true, phase := addrPhase a, stoPend := false
      tws := st', trace := s.trace ++ [.startCond, .tx a], env := rest
      unset := { s.unset with tws := false }
      run := { s.run with npoll := n', todo := ts } } := by
  have h := goes_start_accepted hb ht hs he hl hl' hg
  have g := h.trans (Goes.point hb rfl)
  rcases ha with rfl | rfl <;> exact g

/-- `PrimStart` whose address byte is not acknowledged (R126). -/
theorem goes_start_nack {a : Byte} (hb : s.busy = true) (ht : s.run.todo = .start a :: ts)
    (hs : s.run.st = .ok) {n n' : Nat} {st d st' d' : Byte}
    (he : s.env = replies n st d (replies n' st' d' rest))
    (hl : waitAllowed s.platform n) (hl' : waitAllowed s.platform n')
    (hg : st ∈ s.platform.startBytes) (ha : ¬ ackedAddress st') :
    Goes (n + n' + 4) s { s with
      held := true, phase := if s.held then .repeatedStart else .started, stoPend := false
      tws := st', trace := s.trace ++ [.startCond, .tx a], env := rest
      unset := { s.unset with tws := false }
      run := { s.run with npoll := n', st := .slaveAddressNotAcknowledging, todo := ts } } := by
  have h := goes_start_accepted hb ht hs he hl hl' hg
  have g := h.trans (Goes.point hb rfl)
  rw [ackedAddress, not_or] at ha
  simpa [State.taskStep, State.addrDoneStep, State.addrAcked, State.setTodo, State.fail,
    State.setStatus, ha.1, ha.2] using g

/-- `PrimWrite`, whatever the status (R136). -/
theorem goes_write {b : Byte} (hb : s.busy = true) (ht : s.run.todo = .write b :: ts)
    (hs : s.run.st = .ok) {n : Nat} {st d : Byte} (he : s.env = replies n st d rest)
    (hl : waitAllowed s.platform n) :
    Goes (n + 3) s { s with
      phase := if st = dataTxAck then .writing else s.phase
      tws := st, trace := s.trace ++ [.tx b], env := rest
      unset := { s.unset with tws := false }
      run := { s.run with
        npoll := n
        st := if st = dataTxAck then .ok else .slaveDataNotAcknowledging
        todo := ts } } := by
  have h := Goes.point hb ht
  simp only [State.taskStep, State.writeStep, State.whenOk, hs, if_true] at h
  have w := goes_wait (s := (s.issue (.tx b)).setTodo (.writePoll b :: ts)) hb rfl
    (.inl rfl) he (by simpa using hl)
  have g := Goes.point (s := { s with
      trace := s.trace ++ [.tx b], env := .done st d :: rest
      run := { s.run with npoll := n, todo := .writePoll b :: ts } }) hb rfl
  simp only [State.taskStep, State.writePollStep] at g
  rw [State.poll_done rfl] at g
  have k := Goes.point (s := ({ s with
      tws := st, trace := s.trace ++ [.tx b], env := rest, unset := { s.unset with tws := false }
      run := { s.run with npoll := n, todo := .writeDone :: ts } } : State)) hb rfl
  have m := ((h.trans w).trans (by simpa [State.setTodo, State.issue] using g)).trans k
  rw [show 1 + n + 1 + 1 = n + 3 by omega] at m
  by_cases hst : st = dataTxAck
  · subst hst; simp only [if_true]; rw [← hs]; exact m
  · have hne : (st == dataTxAck) = false := by simpa using hst
    simp only [State.taskStep, State.writeDoneStep, State.dataAcked, hne, Bool.false_eq_true,
      if_false] at m
    simp only [hst, if_false]; exact m

/-- `PrimRead`, whatever the status (R141). -/
theorem goes_read {k : Bool} (hb : s.busy = true) (ht : s.run.todo = .read k :: ts)
    (hs : s.run.st = .ok) {n : Nat} {st d : Byte} (he : s.env = replies n st d rest)
    (hl : waitAllowed s.platform n) :
    Goes (n + 3) s { s with
      phase := .reading, tws := st, trace := s.trace ++ [.rx k], env := rest
      unset := { s.unset with tws := false }
      run := { s.run with npoll := n, rx := d, todo := ts } } := by
  have h := Goes.point hb ht
  simp only [State.taskStep, State.readStep, State.whenOk, hs, if_true] at h
  have w := goes_wait (s := (s.issue (.rx k)).setTodo (.readPoll k :: ts)) hb rfl
    (.inl rfl) he (by simpa using hl)
  have g := Goes.point (s := { s with
      trace := s.trace ++ [.rx k], env := .done st d :: rest
      run := { s.run with npoll := n, todo := .readPoll k :: ts } }) hb rfl
  simp only [State.taskStep, State.readPollStep] at g
  rw [State.poll_done rfl] at g
  have j := Goes.point (s := ({ s with
      tws := st, trace := s.trace ++ [.rx k], env := rest, unset := { s.unset with tws := false }
      run := { s.run with npoll := n, rx := d, todo := .readDone :: ts } } : State)) hb rfl
  have m := ((h.trans w).trans (by simpa [State.setTodo, State.issue] using g)).trans j
  rw [show 1 + n + 1 + 1 = n + 3 by omega] at m
  exact m

/-! ## Operations that expire -/

/-- A `StartCond`, `Tx` or `Rx` that stays unanswered for `l` polls under the limit `l` expires at its last
poll (41_phase_primitives.md R121). -/
theorem goes_expire {t : Task} {l : Nat} (hb : s.busy = true) (ht : s.run.todo = t :: ts)
    (hw : t.waiting = true) (hn : s.run.npoll = 0) (h1 : 1 ≤ l) (hp : s.platform.pollLimit = some l)
    (he : s.env = List.replicate l .notYet ++ rest) :
    Goes l s { s with
      env := rest, run := { s.run with npoll := l, st := .timeout, todo := ts } } := by
  obtain ⟨m, rfl⟩ : ∃ m, l = m + 1 := ⟨l - 1, by omega⟩
  rw [List.replicate_succ', List.append_assoc] at he
  have w := goes_wait hb ht (.inl hw) he (fun k h => by
    rw [hp, Option.mem_def, Option.some.injEq] at h; omega)
  have g := w.trans (Goes.point (s := { s with
    env := [.notYet] ++ rest, run := { s.run with npoll := s.run.npoll + m } }) hb ht)
  have hx : ({ s with
      env := [.notYet] ++ rest, run := { s.run with npoll := s.run.npoll + m } } : State).poll =
      (.expired, { s with env := rest, run := { s.run with npoll := m + 1 } }) := by
    simp [State.poll, State.answer, State.answered, State.notYet, State.countPoll, hp, hn]
  cases t <;> simp only [Task.waiting, Bool.false_eq_true] at hw <;>
    (simp only [State.taskStep, State.startPollStep, State.addrPollStep, State.writePollStep,
      State.readPollStep, hx] at g
     exact g)

/-- A `StopCond` that stays unanswered for `l` polls under the limit `l` expires, and reports nothing
(41_phase_primitives.md R130, R132). -/
theorem goes_expire_stop {l : Nat} (hb : s.busy = true) (ht : s.run.todo = .stopPoll :: ts)
    (hs : s.stoPend = true) (hn : s.run.npoll = 0) (h1 : 1 ≤ l) (hp : s.platform.pollLimit = some l)
    (he : s.env = List.replicate l .notYet ++ rest) :
    Goes l s { s with env := rest, run := { s.run with npoll := l, todo := ts } } := by
  obtain ⟨m, rfl⟩ : ∃ m, l = m + 1 := ⟨l - 1, by omega⟩
  rw [List.replicate_succ', List.append_assoc] at he
  have w := goes_wait hb ht (.inr ⟨rfl, hs⟩) he (fun k h => by
    rw [hp, Option.mem_def, Option.some.injEq] at h; omega)
  have g := w.trans (Goes.point (s := { s with
    env := [.notYet] ++ rest, run := { s.run with npoll := s.run.npoll + m } }) hb ht)
  simpa [State.taskStep, State.stopPollStep, State.pollStop, State.stopMove, State.answer,
    State.answered, State.notYet, State.countPoll, State.setTodo, hs, hp, hn] using g

/-- `RESULT <- s`. -/
theorem goes_result (hb : s.busy = true) (ht : s.run.todo = .result :: ts) :
    Goes 1 s ((s.setResult s.run.st).setTodo ts) := Goes.point hb ht

end

end Sys2Proof.Machine
end

