-- ==== Sys2Proof/Tests/Slice0.lean ====
section
/-! SUPPORT. The model's own tests, their expected results taken from spec 95_test_vectors.md and from the
rules they name, and for every obligation with hypotheses a state and operands that meet them. -/

namespace Sys2Proof.Machine.Tests

/-! ## Well-formedness: an ill-formed term for each check (30_encoding.md R73, R75, R77) -/

theorem test_fields_reserved : Fields.legal ⟨1, 1, 0, 0, 0, 1⟩ = false := by decide

theorem test_fields_opcode :
    Fields.legal ⟨0, 0, 0, 0, 0, 0⟩ = false ∧ Fields.legal ⟨9, 0, 0, 0, 0, 0⟩ = false ∧
    Fields.legal ⟨15, 0, 0, 0, 0, 0⟩ = false := by decide

theorem test_fields_init :
    Fields.legal ⟨1, 0, 1, 0, 0, 1⟩ = false ∧ Fields.legal ⟨1, 0, 0, 1, 0, 1⟩ = false ∧
    Fields.legal ⟨1, 0, 0, 0, 1, 1⟩ = false := by decide

theorem test_fields_start :
    Fields.legal ⟨2, 0, 1, 0, 0, 1⟩ = false ∧ Fields.legal ⟨2, 0, 0, 1, 0, 1⟩ = false ∧
    Fields.legal ⟨2, 0, 0, 0, 1, 1⟩ = false := by decide

theorem test_fields_stop :
    Fields.legal ⟨3, 0, 1, 0, 0, 0⟩ = false ∧ Fields.legal ⟨3, 0, 0, 1, 0, 0⟩ = false ∧
    Fields.legal ⟨3, 0, 0, 0, 1, 0⟩ = false ∧ Fields.legal ⟨3, 0, 0, 0, 0, 1⟩ = false := by decide

theorem test_fields_write :
    Fields.legal ⟨4, 0, 1, 0, 0, 1⟩ = false ∧ Fields.legal ⟨4, 0, 0, 1, 0, 1⟩ = false ∧
    Fields.legal ⟨4, 0, 0, 0, 1, 1⟩ = false := by decide

theorem test_fields_read :
    Fields.legal ⟨5, 0, 1, 1, 0, 0⟩ = false ∧ Fields.legal ⟨5, 0, 1, 0, 1, 0⟩ = false ∧
    Fields.legal ⟨5, 0, 1, 0, 0, 1⟩ = false ∧ Fields.legal ⟨5, 0, 1, 0, 0, 0⟩ = true := by decide

theorem test_fields_buffered :
    Fields.legal ⟨6, 0, 1, 0x50, 0, 3⟩ = false ∧ Fields.legal ⟨6, 0, 0, 0xD0, 0, 3⟩ = false ∧
    Fields.legal ⟨7, 0, 1, 0x50, 0, 3⟩ = false ∧ Fields.legal ⟨7, 0, 0, 0xD0, 0, 3⟩ = false ∧
    Fields.legal ⟨8, 0, 1, 0x50, 0, 3⟩ = false ∧ Fields.legal ⟨8, 0, 0, 0xD0, 0, 3⟩ = false ∧
    Fields.legal ⟨8, 0, 0, 0x50, 0, 3⟩ = true := by decide

theorem test_asm_operand_too_wide :
    assemble (.init 0x100) = none ∧ assemble (.configure 0x100) = none ∧
    assemble (.start 0x100) = none ∧ assemble (.write 0x100) = none ∧
    assemble (.writeByte 0x100) = none := by decide

theorem test_asm_device_too_wide :
    assemble (.startW 0x80) = none ∧ assemble (.startR 0x80) = none ∧
    assemble (.wrbuf 0x80 0 0) = none ∧ assemble (.wrsingle 0x80 0 0) = none ∧
    assemble (.rdbuf 0x80 0 0) = none := by decide

theorem test_asm_buffered_operand_too_wide :
    assemble (.wrbuf 0 0x100 0) = none ∧ assemble (.wrbuf 0 0 0x100) = none ∧
    assemble (.writeBuffer 0 0 0x100) = none ∧ assemble (.writeSingle 0 0x100 0) = none ∧
    assemble (.readBuffer 0 0 0x100) = none ∧ assemble (.rdbuf 0x7F 0xFF 0xFF) ≠ none := by decide

/-! ## Decoding: words written out bit by bit from R71 and R73, OP RSV K A B C -/

/-- INIT 255: OP 0001, C 11111111. -/
theorem test_decode_init :
    decode 0b0001_000_0_00000000_00000000_11111111#32 = some (.init 255) := by decide

/-- START 0xA1: OP 0010, C 10100001. -/
theorem test_decode_start :
    decode 0b0010_000_0_00000000_00000000_10100001#32 = some (.start 0xA1) := by decide

/-- STOP: OP 0011. -/
theorem test_decode_stop :
    decode 0b0011_000_0_00000000_00000000_00000000#32 = some .stop := by decide

/-- WRITE 0x10: OP 0100, C 00010000. -/
theorem test_decode_write :
    decode 0b0100_000_0_00000000_00000000_00010000#32 = some (.write 0x10) := by decide

/-- READ ACK: OP 0101, K 1; READ NACK: K 0. -/
theorem test_decode_read :
    decode 0b0101_000_1_00000000_00000000_00000000#32 = some (.read true) ∧
    decode 0b0101_000_0_00000000_00000000_00000000#32 = some (.read false) := by decide

/-- WRBUF 0x7F, 0xFF, 254: OP 0110, A 01111111, B 11111111, C 11111110. -/
theorem test_decode_wrbuf :
    decode 0b0110_000_0_01111111_11111111_11111110#32 = some (.wrbuf 0x7F 0xFF 254) := by decide

/-- WRSINGLE 0x50, 0x10, 0xAB: OP 0111, A 01010000, B 00010000, C 10101011. -/
theorem test_decode_wrsingle :
    decode 0b0111_000_0_01010000_00010000_10101011#32 = some (.wrsingle 0x50 0x10 0xAB) := by decide

/-- RDBUF 0x50, 0x10, 2: OP 1000, A 01010000, B 00010000, C 00000010. -/
theorem test_decode_rdbuf :
    decode 0b1000_000_0_01010000_00010000_00000010#32 = some (.rdbuf 0x50 0x10 2) := by decide

/-- Illegal words of 95_test_vectors.md section 2. -/
theorem test_decode_illegal :
    decode 0x71000000 = none ∧ decode 0x90000000 = none ∧ decode 0xF0000000 = none ∧
    decode 0x11000001 = none ∧ decode 0x10010001 = none ∧ decode 0x10000101 = none ∧
    decode 0x31000000 = none ∧ decode 0x51000001 = none ∧ decode 0x50000100 = none ∧
    decode 0x61500003 = none ∧ decode 0x8E501002 = none := by decide

/-- The table's numbering: one 32-bit word. -/
theorem test_table_word : decodeTableWord 32 0x80501002 = some (.rdbuf 0x50 0x10 2) := by decide

/-! ## Small states -/

/-- The parameters of 95_test_vectors.md section 0, with the register block away from address 0. -/
def plat : Platform where
  sysClkHz := 16000000
  pollLimit := none
  startAccept := [.startSent, .rstartSent]
  regBase := 0x40
  holes := []

/-- S0 of 95_test_vectors.md section 0, with BusEnv's coming answers. -/
def s0 (env : List BusAnswer) : State :=
  { State.reset with
    div := 72, configured := true, platform := plat, env := env, pace := 48
    unset := ⟨false, false, false, true, true, true⟩ }

/-- S0 with the bus held, in the middle of a transaction. -/
def held (phase : Phase) (env : List BusAnswer) : State := { s0 env with held := true, phase := phase }

/-- S0 with BUFPTR written and some bytes of memory. -/
def buf (p : Addr) (m : Memory) (env : List BusAnswer) : State :=
  { s0 env with bufptr := p, mem := m, unset := ⟨false, false, false, true, true, false⟩ }

/-- `s` with another clock, poll limit, START_ACCEPT or refused range. -/
def withPlat (p : Platform) (s : State) : State := { s with platform := p }

/-- The state a step or a command leads to, if it leads to one. -/
def state? : Host.Outcome State Fault Refusal → Option State
  | .next t => some t
  | .fault _ => none
  | .refused _ => none

/-- The outcome is a next state of which `f` holds. -/
def leads (o : Host.Outcome State Fault Refusal) (f : State → Bool) : Bool := (state? o).any f

/-- The state of an outcome, `s` if it has none. -/
def stateOr (s : State) (o : Host.Outcome State Fault Refusal) : State := (state? o).getD s

/-- The address of the register at an offset, on `plat`. -/
def reg (off : Nat) : Nat := 0x40 + off

/-- A reply at the first poll, with no data. -/
def at1 (st : Byte) : Reply := ⟨0, st, 0⟩

/-- An answer at the first poll. -/
def ok (st : Byte) : BusAnswer := .done st 0

/-- S0 with the host's next action. -/
def doing (a : HostAct) (s : State) : State := { s with host := [a] }

/-- S0 with a command running, `ts` still to do. -/
def running (cmd : Instr) (st : StatusCode) (ts : List Task) (s : State) : State :=
  { s with busy := true, run := { s.run with cmd := cmd, st := st, todo := ts } }

/-! ## One command each (95_test_vectors.md sections 3 to 7) -/

/-- INIT-14: the first clock that needs the prescaler ×4. -/
theorem test_init_prescaled :
    leads (exec (.init 1) (withPlat { plat with sysClkHz := 52800000 } (s0 [])))
      (fun t => t.div == 64 && t.ps == 1 && t.result == .prescalerAttached) = true := by decide

/-- INIT-6 and INIT-21: the two slow outcomes, underflow and clamp. -/
theorem test_init_slower :
    clockSetting 16000000 11 = (0, 0, .slowerThanRequested) ∧
    clockSetting 3278400000 1 = (255, 3, .slowerThanRequested) ∧
    clockSetting 3278200000 1 = (255, 3, .prescalerAttached) := by decide

/-- ST-1. -/
theorem test_start :
    leads (exec (.start 0xA0) (s0 [ok 0x08, ok 0x18]))
      (fun t => t.trace == [.startCond, .tx 0xA0] && t.ctrlstat == 0x2C && t.result == .ok &&
        t.tws == 0x18 && !t.stoPend) = true := by decide

/-- ST-9: a strict START_ACCEPT fails at a repeated start. -/
theorem test_start_bad :
    leads (exec (.start 0xA1)
        (withPlat { plat with startAccept := [.startSent] } (held .writing [ok 0x10])))
      (fun t => t.trace == [.startCond] && t.result == .badStart && t.phase == .repeatedStart &&
        t.held && t.tws == 0x10) = true := by decide

/-- SP-1. -/
theorem test_stop :
    leads (exec .stop (held .writing [.notYet, ok 0]))
      (fun t => t.trace == [.stopCond] && !t.held && t.phase == .stopped && !t.busy) = true := by decide

/-- SP-5: an expired stop keeps the bus, with STO_PEND still 1. -/
theorem test_stop_expires :
    leads (exec .stop (withPlat { plat with pollLimit := some 3 }
        (held .writing [.notYet, .notYet, .notYet])))
      (fun t => t.held && t.phase == .writing && t.stoPend && !t.busy && t.result == .ok) = true := by
  decide

/-- WR-1. -/
theorem test_write :
    leads (exec (.write 0x10) (held .addressAcked [ok 0x28]))
      (fun t => t.trace == [.tx 0x10] && t.result == .ok && t.phase == .writing && t.tws == 0x28) =
      true := by decide

/-- WR-2: a NACK leaves PHASE and HELD. -/
theorem test_write_nack :
    leads (exec (.write 0x10) (held .addressAcked [ok 0x30]))
      (fun t => t.result == .slaveDataNotAcknowledging && t.phase == .addressAcked && t.held) =
      true := by decide

/-- RD-3: the byte is stored whatever its status, and RESULT keeps its value. -/
theorem test_read :
    leads (exec (.read true) (held .addressAckedRead [.done 0x38 0x42]))
      (fun t => t.trace == [.rx true] && t.rdata == 0x42 && t.tws == 0x38 && t.phase == .reading &&
        t.result == .ok) = true := by decide

/-- RD-5: an expired receive writes RESULT, not RDATA. -/
theorem test_read_expires :
    leads (exec (.read true) (withPlat { plat with pollLimit := some 1 }
        (held .addressAckedRead [.notYet])))
      (fun t => t.result == .timeout && t.rdata == 0 && t.phase == .addressAckedRead) = true := by
  decide

/-- WB-6: the NACK of the second byte ends the loop. -/
theorem test_wrbuf_nack :
    leads (exec (.wrbuf 0x50 0x00 3) (buf 0x0100 [(256, 0x11), (257, 0x22), (258, 0x33)]
        [ok 0x08, ok 0x18, ok 0x28, ok 0x28, ok 0x30, ok 0]))
      (fun t => t.trace ==
          [.startCond, .tx 0xA0, .tx 0x00, .tx 0x11, .tx 0x22, .stopCond] &&
        t.result == .slaveDataNotAcknowledging && t.tws == 0x30 && t.ctrlstat == 0x74) = true := by
  decide

/-- WB-11: a refused read halts the command, with no cleanup stop. -/
theorem test_wrbuf_refused :
    leads (exec (.wrbuf 0x50 0x00 3) (withPlat { plat with holes := [⟨256, 1, true, false⟩] }
        (buf 0x0100 [] [ok 0x08, ok 0x18, ok 0x28])))
      (fun t => t.trace == [.startCond, .tx 0xA0, .tx 0x00] && t.fault && t.fcause == .bufAccess &&
        !t.busy && t.held && t.phase == .writing) = true := by decide

/-- WS-1, the source's own scenario. -/
theorem test_wrsingle_absent :
    leads (exec (.wrsingle 0x50 0x10 0xAB) (s0 [ok 0x08, ok 0x20, ok 0]))
      (fun t => t.trace == [.startCond, .tx 0xA0, .stopCond] && t.ctrlstat == 0x74 &&
        t.result == .slaveAddressNotAcknowledging && t.tws == 0x20) = true := by decide

/-- WB-8's defensive stop, on WRSINGLE: the bus is held at entry. -/
theorem test_wrsingle_defensive_stop :
    leads (exec (.wrsingle 0x50 0x10 0xAB)
        (held .writing [ok 0, ok 0x08, ok 0x18, ok 0x28, ok 0x28, ok 0]))
      (fun t => t.trace ==
          [.stopCond, .startCond, .tx 0xA0, .tx 0x10, .tx 0xAB, .stopCond] && t.result == .ok) =
      true := by decide

/-- RB-1. -/
theorem test_rdbuf :
    leads (exec (.rdbuf 0x50 0x10 2) (buf 0x0200 []
        [ok 0x08, ok 0x18, ok 0x28, ok 0x10, ok 0x40, .done 0x50 0xDE, .done 0x58 0xAD, ok 0]))
      (fun t => t.trace == [.startCond, .tx 0xA0, .tx 0x10, .startCond, .tx 0xA1, .rx true,
          .rx false, .stopCond] &&
        t.mem == [(0x200, 0xDE), (0x201, 0xAD)] && t.result == .ok && t.tws == 0x58) = true := by
  decide

/-- RB-5: the byte is stored before its status is checked. -/
theorem test_rdbuf_bad_byte :
    leads (exec (.rdbuf 0x50 0x10 3) (buf 0x0200 []
        [ok 0x08, ok 0x18, ok 0x28, ok 0x10, ok 0x40, .done 0x50 1, .done 0x58 2, ok 0]))
      (fun t => t.mem == [(0x200, 1), (0x201, 2)] && t.result == .slaveDataNotAcknowledging &&
        t.phase == .stopped) = true := by decide

/-! ## The host port and steps -/

/-- FX-1: from reset, the all-zero word is F_ILLEGAL, not F_NOT_CONFIGURED. -/
theorem test_step_illegal :
    leads (step (State.reset.withFetchWord 32 0)) (fun t => t.ctrlstat == 0x102 && t.host == []) =
      true := by decide

/-- ST-11: START from reset. -/
theorem test_step_not_configured :
    leads (step (State.reset.withFetchWord 32 0x200000A0)) (fun t => t.ctrlstat == 0x302) =
      true := by decide

/-- WB-10: 0xFFFD + 4 does not fit; WB-9: 0xFFFD + 3 does. -/
theorem test_buffer_range :
    leads (exec (.wrbuf 0x50 0 4) (buf 0xFFFD [] [])) (fun t => t.fcause == .bufRange) = true ∧
    leads (exec (.wrbuf 0x50 0 3) { buf 0xFFFD [] [] with pace := 0 })
      (fun t => t.busy && t.run.lbuf == 0xFFFD) = true := by decide

/-- FX-6: a command while one runs is F_BUSY, and the running one goes on. -/
theorem test_busy :
    leads (exec .stop (stateOr (s0 []) (exec (.start 0xA0) { s0 [] with pace := 0 })))
      (fun t => t.fault && t.fcause == .busy && t.busy && t.run.todo == [.start 0xA0, .result]) =
      true := by decide

/-- P6: the CTRLSTAT and CLKCFG words. -/
theorem test_host_view :
    State.hostView { s0 [] with fault := true, fcause := .busNotHeld } 0x08 = 0x506 ∧
    State.hostView { s0 [] with div := 123, ps := 1 } 0x14 = 0x17B := by decide

/-- FX-12: BUFPTR takes 16 bits; FX-11: CMD and offset 0x1C read 0. -/
theorem test_host_bufptr :
    ((s0 []).hostWrite 4 0xFFFFFFFF).hostView 4 = 0x0000FFFF ∧ (s0 []).hostView 0 = 0 ∧
    (s0 []).hostView 0x1C = 0 := by decide

/-- R57: a byte access has no step; an access below REG_BASE is not to this block. -/
theorem test_host_byte_access :
    step { s0 [] with host := [.read 1 (reg 8)] } = .refused (.hostAccess 1 8) ∧
    step { s0 [] with host := [.read 4 0x3C] } = .refused (.otherUnit 4 0x3C) := ⟨rfl, rfl⟩

/-- R61: the byte a host writes before WRBUF reads it may be seen (choice 0) or not (choice 1). -/
theorem test_race_wrbuf :
    (let s (n : Nat) : State :=
        { running (.wrbuf 0 0 1) .ok [.sendLoop] (buf 0 [(0, 7)] []) with
          pace := 0, picks := [n], host := [.bufWrite 0 9, .idle] }
      let u (n : Nat) : State := stateOr (s n) (step (stateOr (s n) (step (s n))))
      (u 0).run.todo == [.write 9, .sendNext] && (u 1).run.todo == [.write 7, .sendNext] &&
        (u 1).mem == [(0, 9)] && (u 1).picks == []) = true := by decide

/-- R61: a host read of a byte RDBUF has stored gives the received value or the old one. -/
theorem test_race_rdbuf :
    (let s (n : Nat) : State :=
        { running (.rdbuf 0 0 1) .ok [.store] (buf 0 [(0, 7)] []) with
          pace := 0, picks := [n], host := [.idle, .bufRead 0] }
      let u (n : Nat) : State := stateOr (s n) (step (stateOr (s n) (step (s n))))
      (u 0).hostData == 0 && (u 1).hostData == 7 && (u 1).mem == []) = true := by decide

/-- FX-10: reset leaves the fault state. -/
theorem test_host_reset :
    leads (step { s0 [] with fault := true, fcause := .illegal, host := [.reset] })
      (fun t => t.ctrlstat == 0 && t.unset.tws) = true := by decide

/-! ## Witnesses: states and operands that meet the hypotheses of each obligation -/

theorem witness_EncodeOfDecode : decode 0x607FFFFF#32 = some (.wrbuf 0x7F 0xFF 255) := by decide

/-- Clause 1 at the ends of the opcode range and on one word of every other kind; clause 2. -/
theorem witness_IllegalWordsFault :
    decode 0x0FFFFFFF#32 = none ∧ decode 0x90000000#32 = none ∧ decode 0x12000001#32 = none ∧
    decode 0x41000000#32 = none ∧ decode 0x20010000#32 = none ∧ decode 0x10000101#32 = none ∧
    decode 0x30000001#32 = none ∧ decode 0x51000001#32 = none ∧ decode 0x71000000#32 = none ∧
    decode 0x80800000#32 = none ∧ decode 0x807FFFFF#32 ≠ none ∧
    (fun s : State => s.host = .write 4 s.platform.regBase 0 :: [] ∧ s.Ready ∧ decode 0 = none)
      (doing (.write 4 (reg 0) 0) (s0 [])) := by decide

/-- The largest operands a form takes, and the least it refuses. -/
theorem witness_AssemblerForms :
    Asm.wellFormed (.init 0xFF) = true ∧ Asm.wellFormed (.init 0x100) = false ∧
    Asm.wellFormed (.wrbuf 0x7F 0xFF 0xFF) = true ∧ Asm.wellFormed (.wrbuf 0x80 0xFF 0xFF) = false ∧
    Asm.wellFormed (.wrbuf 0x7F 0x100 0xFF) = false ∧
    Asm.wellFormed (.wrbuf 0x7F 0xFF 0x100) = false := by decide

/-- The admitted clause at both ends of the space; and the refused read in WRBUF. -/
theorem witness_MemReadAdmittedOrFault :
    ((s0 []).admitsRead 0 = true ∧ (s0 []).admitsRead 65535 = true ∧
      (s0 []).admitsRead 65536 = false ∧ (s0 []).run.earlier 65535 = []) ∧
    (fun s : State => s.busy = true ∧ s.run.todo = [.sendLoop, .stop, .result] ∧ s.run.st = .ok ∧
      s.run.idx < s.run.len ∧ s.admitsRead (s.run.lbuf.toNat + s.run.idx) = false)
    (running (.wrbuf 0 0 1) .ok [.sendLoop, .stop, .result]
      (withPlat { plat with holes := [⟨0, 1, true, false⟩] } (s0 []))) := by decide

/-- Clause 1 at the last address of the space; clause 2. -/
theorem witness_MemWriteAdmittedOrFault :
    ((s0 []).mem.Wf ∧ (s0 []).admitsWrite 65535 = true ∧ (s0 []).admitsWrite 65536 = false) ∧
    (fun s : State => s.busy = true ∧ s.run.todo = [.store, .recvLoop, .stop, .result] ∧
      s.run.st = .ok ∧ s.admitsWrite (s.run.lbuf.toNat + s.run.idx) = false)
    (running (.rdbuf 0 0 1) .ok [.store, .recvLoop, .stop, .result]
      (withPlat { plat with holes := [⟨0, 1, false, true⟩] } (s0 []))) := by decide

theorem witness_StepRunsTheDecodedCommand :
    (fun s : State => s.host = .write 4 s.platform.regBase 0x30000000 :: [])
      (doing (.write 4 (reg 0) 0x30000000) (s0 [])) ∧
    decode 0x30000000 = some .stop := by decide

/-- Every clause: dropped, busy, illegal, each refusal, and accepted. -/
theorem witness_AcceptanceInOrder :
    ((running .stop .ok [] (s0 [])).busy = true ∧ (running .stop .ok [] (s0 [])).run.todo = []) ∧
    (fun s : State => s.host = .write 4 s.platform.regBase 0 :: [])
      (doing (.write 4 (reg 0) 0) (s0 [])) ∧
    { s0 [] with fault := true }.fault = true ∧
    (running .stop .ok [.stop] (s0 [])).fault = false ∧
    (running .stop .ok [.stop] (s0 [])).busy = true ∧
    (s0 []).Ready ∧ decode 0 = none ∧
    refusedBy (.init 0) (s0 []) = some .zeroRate ∧
    refusedBy .stop State.reset = some .notConfigured ∧
    refusedBy (.write 1) (s0 []) = some .busNotHeld ∧
    refusedBy (.rdbuf 0x50 0 2) (buf 0xFFFF [] []) = some .bufRange ∧
    refusedBy (.rdbuf 0x50 0 1) (buf 0xFFFF [] []) = none ∧
    refusedBy (.init 1) State.reset = none := by decide

theorem witness_FaultEntry : (Cause.busy ≠ .bufAccess) ∧ (Cause.bufAccess = .bufAccess) := by decide

theorem witness_FaultedBlockDropsCommands :
    (fun s : State => s.fault = true ∧ s.host = .write 4 s.platform.regBase 0x10000001 :: [])
      (doing (.write 4 (reg 0) 0x10000001) { s0 [] with fault := true }) ∧
    (fun s : State => s.fault = true ∧ s.host = .read 4 (s.platform.regBase + 0x18) :: [] ∧
      0x18 % 4 = 0)
      (doing (.read 4 (reg 0x18)) { s0 [] with fault := true }) ∧
    (fun s : State => s.fault = true ∧ s.host = .write 4 (s.platform.regBase + 4) 0xFFFFFFFF :: [])
      (doing (.write 4 (reg 4) 0xFFFFFFFF) { s0 [] with fault := true }) ∧
    (fun s : State => s.fault = false ∧ s.busy = true) (running .stop .ok [.stop] (s0 [])) := by
  decide

theorem witness_OnlyResetClearsFault :
    ({ s0 [] with fault := true }.fault = true ∧
      (∃ t, step { s0 [] with fault := true } = .next t) ∧
      ∀ rest, { s0 [] with fault := true }.host ≠ .reset :: rest) ∧
    (doing .reset { s0 [] with fault := true }).host = .reset :: [] :=
  ⟨⟨rfl, ⟨_, rfl⟩, fun _ h => nomatch h⟩, rfl⟩

theorem witness_ResetAbandons :
    (doing .reset (running (.write 1) .ok [.writePoll 1, .result] (s0 []))).host = .reset :: [] := rfl

/-- Each clause, the offsets at the ends of each range, in S0 (TWS, RDATA and BUFPTR not yet written), while
a command runs and in the fault state. -/
theorem witness_RegisterMap :
    (fun s : State => s.host = .write 4 s.platform.regBase 0 :: [])
      (doing (.write 4 (reg 0) 0) (s0 [])) ∧
    (fun s : State => s.host = .write 4 (s.platform.regBase + 0x04) 0xFFFFFFFF :: [] ∧
      s.busy = true) (doing (.write 4 (reg 4) 0xFFFFFFFF) (running .stop .ok [.stop] (s0 []))) ∧
    (fun s : State => 0x08 % 4 = 0 ∧ 0x08 ≠ 0x00 ∧ 0x08 ≠ 0x04 ∧
      s.host = .write 4 (s.platform.regBase + 0x08) 1 :: [])
      (doing (.write 4 (reg 0x08) 1) (s0 [])) ∧
    (fun s : State => s.host = .read 4 (s.platform.regBase + 0x00) :: [])
      (doing (.read 4 (reg 0)) (s0 [])) ∧
    (fun s : State => s.host = .read 4 (s.platform.regBase + 0x04) :: [] ∧ s.unset.bufptr = false)
      (doing (.read 4 (reg 0x04)) (buf 0xFFFF [] [])) ∧
    (fun s : State => s.host = .read 4 (s.platform.regBase + 0x08) :: [] ∧ s.fault = true)
      (doing (.read 4 (reg 0x08)) { s0 [] with fault := true, fcause := .illegal }) ∧
    (fun s : State => s.host = .read 4 (s.platform.regBase + 0x0C) :: [] ∧
      s.unset.result = false) (doing (.read 4 (reg 0x0C)) (s0 [])) ∧
    (fun s : State => s.host = .read 4 (s.platform.regBase + 0x10) :: [] ∧ s.unset.rdata = false)
      (doing (.read 4 (reg 0x10)) ((s0 []).setRdata 0xFF)) ∧
    (fun s : State => s.host = .read 4 (s.platform.regBase + 0x14) :: [] ∧ s.unset.div = false ∧
      s.unset.ps = false) (doing (.read 4 (reg 0x14)) (s0 [])) ∧
    (fun s : State => s.host = .read 4 (s.platform.regBase + 0x18) :: [] ∧ s.unset.tws = false)
      (doing (.read 4 (reg 0x18)) ((s0 []).setTws 0xF8)) := by decide

/-- Each clause: the wrong width, the wrong alignment, and an access of the right form. -/
theorem witness_OddAccessesAreRefused :
    (fun s : State => s.host = .read 2 (s.platform.regBase + 8) :: [] ∧ 2 ≠ 4)
      (doing (.read 2 (reg 8)) (s0 [])) ∧
    (fun s : State => s.host = .read 4 (s.platform.regBase + 9) :: [] ∧ 9 % 4 ≠ 0)
      (doing (.read 4 (reg 9)) (s0 [])) ∧
    (fun s : State => s.host = .read 4 (s.platform.regBase + 8) :: [] ∧ 8 % 4 = 0)
      (doing (.read 4 (reg 8)) (s0 [])) ∧
    (fun s : State => s.host = .write 1 (s.platform.regBase + 0) 7 :: [] ∧ 1 ≠ 4)
      (doing (.write 1 (reg 0) 7) (s0 [])) ∧
    (fun s : State => s.host = .write 4 (s.platform.regBase + 3) 7 :: [] ∧ 3 % 4 ≠ 0)
      (doing (.write 4 (reg 3) 7) (s0 [])) ∧
    (fun s : State => s.host = .write 4 (s.platform.regBase + 0) 7 :: [] ∧ 0 % 4 = 0)
      (doing (.write 4 (reg 0) 7) (s0 [])) := by decide

theorem witness_HostAccessEffects :
    (fun s : State => s.host = .read 4 (s.platform.regBase + 0x1C) :: [] ∧ 0x1C % 4 = 0 ∧
      0x1C ≤ 0x1C ∧ s.viewIsFree 0x1C = false) (doing (.read 4 (reg 0x1C)) (s0 [])) ∧
    (fun s : State => s.host = .read 4 (s.platform.regBase + 0) :: [])
      (doing (.read 4 (reg 0)) (s0 [])) ∧
    (fun s : State => s.host = .write 4 (s.platform.regBase + 4) 1 :: [] ∧ s.busy = true)
      (doing (.write 4 (reg 4) 1) (running .stop .ok [.stop] (s0 []))) ∧
    (fun s : State => s.host = .write 4 (s.platform.regBase + 8) 1 :: [] ∧ 8 % 4 = 0 ∧ 8 ≤ 8)
      (doing (.write 4 (reg 8) 1) (s0 [])) ∧
    (fun s : State => 0x3F < s.platform.regBase ∧ s.host = .read 4 0x3F :: [])
      (doing (.read 4 0x3F) (s0 [])) := by decide

theorem witness_OnlyCommandsStartTheBlock :
    (s0 []).busy = false ∧
    (∀ w rest, (doing (.write 4 (reg 4) 1) (s0 [])).host ≠
      .write 4 (s0 []).platform.regBase w :: rest) ∧
    ∃ t, step (doing (.write 4 (reg 4) 1) (s0 [])) = .next t :=
  ⟨rfl, fun _ _ h => by simp [doing, reg, s0, plat] at h, ⟨_, rfl⟩⟩

/-- Clause 1 for each of the six, at reset and, for the three INIT does not write, in S0; clause 2 in S0,
which a run reaches, with the least length (any base holds it). -/
theorem witness_UnspecifiedReadsAreDraws :
    (fun s : State => s.unset.bufptr = true ∧ s.unset.result = true ∧ s.unset.rdata = true ∧
      s.unset.div = true ∧ s.unset.ps = true ∧ s.unset.tws = true ∧
      s.host = .read 4 (s.platform.regBase + 0x14) :: []) (doing (.read 4 0x14) State.reset) ∧
    (fun s : State => s.unset.bufptr = true ∧ s.unset.rdata = true ∧ s.unset.tws = true ∧
      s.host = .read 4 (s.platform.regBase + 0x04) :: []) (doing (.read 4 (reg 0x04)) (s0 [])) ∧
    (fun s : State => s.Accepting ∧ s.unset.bufptr = true) (s0 []) ∧
    ∀ x : BitVec 16, x.toNat + (0#8).toNat ≤ 65536 :=
  ⟨by decide, by decide, by decide, fun x => by have := x.isLt; simp; omega⟩

theorem witness_BufptrWriteSparesTheCommand :
    (fun s : State => s.host = .write 4 (s.platform.regBase + 0x04) 0x1FFFF :: [] ∧ s.busy = true)
      (doing (.write 4 (reg 4) 0x1FFFF) (running .stop .ok [.stop] (s0 []))) := by decide

/-- WRBUF before the read of the last byte of the space, and RDBUF before its store there. -/
theorem witness_BufferRaceAdmitsBothValues :
    (fun s : State => s.mem.Wf ∧ s.pace ≤ 1 ∧ s.busy = true ∧ s.run.st = .ok ∧
      s.run.idx < s.run.len ∧ (0xFFFF#16).toNat = s.run.lbuf.toNat + s.run.idx ∧
      s.run.earlier (0xFFFF#16).toNat = [] ∧ s.picks = 1 :: [] ∧
      s.run.todo = .sendLoop :: [.stop, .result] ∧ s.admitsRead (0xFFFF#16).toNat = true)
    { s0 [] with
      pace := 1, busy := true, picks := [1]
      run := { Run.reset with
        cmd := .wrbuf 0 0 1, lbuf := 0xFFFF, todo := [.sendLoop, .stop, .result] } } ∧
    (fun s : State => s.pace ≤ 1 ∧ s.run.st = .ok ∧ s.run.cmd = .rdbuf 0 0 2 ∧
      s.run.idx < s.run.len ∧ (0xFFFF#16).toNat = s.run.lbuf.toNat + s.run.idx ∧
      s.run.earlier (0xFFFF#16).toNat = [] ∧ s.picks = 0 :: [] ∧
      s.run.todo = .store :: [.recvLoop] ∧ s.admitsWrite (0xFFFF#16).toNat = true)
    { s0 [] with
      pace := 0, busy := true, picks := [0]
      run := { Run.reset with
        cmd := .rdbuf 0 0 2, lbuf := 0xFFFE, idx := 1, todo := [.store, .recvLoop] } } := by decide

/-- The rows of 40_clock_configurator.md R113: `raw` at every threshold, from both sides. -/
theorem witness_ClockThresholds :
    rawDivisor 16000000 10 = 0 ∧ rawDivisor 16000000 11 = -1 ∧ rawDivisor 52600000 1 = 255 ∧
    rawDivisor 52800000 1 = 256 ∧ rawDivisor 206200000 1 = 1023 ∧ rawDivisor 206400000 1 = 1024 ∧
    rawDivisor 820600000 1 = 4095 ∧ rawDivisor 820800000 1 = 4096 ∧
    rawDivisor 3278200000 1 = 16383 ∧ rawDivisor 3278400000 1 = 16384 := by decide

theorem witness_ClockRateAgainstTarget :
    (clockSetting 16000000 10).2.2 = .ok ∧ (clockSetting 52800000 1).2.2 = .prescalerAttached ∧
    rawDivisor 16000000 11 < 0 ∧ 16384 ≤ rawDivisor 3278400000 1 := by decide

theorem witness_InitConfigures :
    (s0 []).Ready ∧ (1 : BitVec 8) ≠ 0 ∧ 4 ≤ (s0 []).pace ∧
    (held .writing []).Ready ∧ 4 ≤ (held .writing []).pace := by decide

/-- Both outcomes of each check, a poll that waits, and the greatest wait a limit allows. -/
theorem witness_StartOutcome :
    (fun s : State => s.Accepting ∧ s.env = replies 1 0x08 0 (replies 0 0x18 0 []) ∧
      waitAllowed s.platform 1 ∧ waitAllowed s.platform 0 ∧ 1 + 0 + 6 ≤ s.pace ∧
      (0x08 : Byte) ∈ s.platform.startBytes ∧ ackedAddress 0x18)
    (withPlat { plat with pollLimit := some 2 } (s0 [.notYet, ok 0x08, ok 0x18])) ∧
    (fun s : State => s.Accepting ∧ s.env = replies 0 0x00 0 (replies 0 0x20 0 []) ∧
      waitAllowed s.platform 0 ∧ (0x00 : Byte) ∉ s.platform.startBytes ∧ ¬ ackedAddress 0x20)
    (held .writing [ok 0x00, ok 0x20]) := by decide

theorem witness_StopOutcome :
    ((s0 []).Accepting ∧ (s0 []).held = false ∧ 2 ≤ (s0 []).pace) ∧
    (fun s : State => s.Accepting ∧ s.held = true ∧ s.env = replies 1 0 0 [] ∧
      waitAllowed s.platform 1 ∧ 1 + 3 ≤ s.pace) (held .writing [.notYet, ok 0]) := by decide

theorem witness_StopTwiceIsStopOnce :
    (fun s t : State => s.Accepting ∧ t.busy = false ∧ s.platform.pollLimit = none)
      (held .writing [ok 0]) (stateOr (s0 []) (exec .stop (held .writing [ok 0]))) ∧
    exec .stop (held .writing [ok 0]) =
      .next (stateOr (s0 []) (exec .stop (held .writing [ok 0]))) := ⟨by decide, rfl⟩

theorem witness_WriteOutcome :
    (fun s : State => s.Accepting ∧ s.held = true ∧ s.env = replies 1 0x28 0 [] ∧
      waitAllowed s.platform 1 ∧ 1 + 5 ≤ s.pace) (held .addressAcked [.notYet, ok 0x28]) := by decide

theorem witness_ReadOutcome :
    (fun s : State => s.Accepting ∧ s.held = true ∧ s.env = replies 0 0x58 0x5A [] ∧
      waitAllowed s.platform 0 ∧ 0 + 5 ≤ s.pace)
    (held .addressAckedRead [.done 0x58 0x5A]) := by decide

/-- The first operation expires; and START's address byte, after a start that was waited for. -/
theorem witness_ExpiredPollsTimeOut :
    (fun s : State => s.Accepting ∧ s.platform.pollLimit = some 1 ∧
      s.env = List.replicate 1 .notYet ++ [] ∧ 1 + 3 ≤ s.pace ∧ s.held = true)
    (withPlat { plat with pollLimit := some 1 } (held .writing [.notYet])) ∧
    (fun s : State => s.Accepting ∧ s.platform.pollLimit = some 2 ∧
      (0x08 : Byte) ∈ s.platform.startBytes ∧
      s.Hears [⟨1, 0x08, 0⟩] (List.replicate 2 .notYet ++ []) ∧ 1 + 2 + 4 ≤ s.pace)
    (withPlat { plat with pollLimit := some 2 } (s0 [.notYet, ok 0x08, .notYet, .notYet])) := by
  decide

/-- A task that waits, and a stop that waits. -/
theorem witness_UnansweredPollsHang :
    (fun s : State => s.busy = true ∧ s.platform.pollLimit = none ∧
      s.run.todo = .writePoll 1 :: [.result] ∧ s.env = List.replicate 2 .notYet ++ [] ∧
      Task.waiting (.writePoll 1) = true)
    (running (.write 1) .ok [.writePoll 1, .result] (held .writing [.notYet, .notYet])) ∧
    (fun s : State => s.busy = true ∧ s.run.todo = .stopPoll :: [] ∧ s.stoPend = true)
    { running .stop .ok [.stopPoll] (held .writing [.notYet, .notYet]) with stoPend := true } := by
  decide

/-- The three failures, the third with the bus held and a buffer that ends at the top of the space. -/
theorem witness_BufferedEarlyFailures :
    (fun s : State => s.Accepting ∧
      16 + pollCount (transaction s.held (at1 0) (at1 0) [at1 0, at1 0x20, at1 0x30]) ≤ s.pace ∧
      (at1 0).status ∉ s.platform.startBytes ∧
      s.Hears (transaction s.held (at1 0) (at1 0) [at1 0]) []) (s0 [ok 0x00, ok 0]) ∧
    (fun s : State => (at1 0x08).status ∈ s.platform.startBytes ∧
      ¬ ackedAddress (at1 0x20).status ∧
      s.Hears (transaction s.held (at1 0) (at1 0) [at1 0x08, at1 0x20]) [])
      (s0 [ok 0x08, ok 0x20, ok 0]) ∧
    (fun s : State => s.Accepting ∧ s.unset.bufptr = false ∧ s.bufptr.toNat + (3#8).toNat ≤ 65536 ∧
      16 + pollCount (transaction s.held ⟨1, 0, 0⟩ (at1 0) [at1 0x08, at1 0x18, at1 0x30]) ≤ s.pace ∧
      ackedAddress (at1 0x18).status ∧ (at1 0x30).status ≠ dataTxAck ∧
      s.Hears (transaction s.held ⟨1, 0, 0⟩ (at1 0) [at1 0x08, at1 0x18, at1 0x30]) [])
    { buf 0xFFFD [] [.notYet, ok 0, ok 0x08, ok 0x18, ok 0x30, ok 0] with
      held := true, phase := .writing } := by decide

/-- The byte's operation takes three polls, the most the limit allows before it is given up. -/
theorem witness_WrsingleSends :
    (fun s : State => s.Accepting ∧ Opens s.platform (at1 0x08) (at1 0x18) (at1 0x28) ∧
      s.Hears (transaction s.held (at1 0) (at1 0)
        [at1 0x08, at1 0x18, at1 0x28, ⟨2, 0x28, 0⟩]) [] ∧
      16 + pollCount (transaction s.held (at1 0) (at1 0)
        [at1 0x08, at1 0x18, at1 0x28, ⟨2, 0x28, 0⟩]) ≤ s.pace)
    (withPlat { plat with pollLimit := some 3 }
      (s0 [ok 0x08, ok 0x18, ok 0x28, .notYet, .notYet, ok 0x28, ok 0])) := by decide

/-- All bytes acknowledged up to the top of the space; the second of three not; and no byte at all. -/
theorem witness_WrbufSendsTheBuffer :
    (fun (s : State) (acks : List Reply) => s.Accepting ∧ s.BufferUsable (.wrbuf 0x50 0 3) ∧
      Opens s.platform (at1 0x08) (at1 0x18) (at1 0x28) ∧ (∀ r ∈ acks, r.status = dataTxAck) ∧
      (at1 0x30).status ≠ dataTxAck ∧ acks.length ≤ (3#8).toNat ∧
      s.Hears (transaction s.held (at1 0) (at1 0)
        ([at1 0x08, at1 0x18, at1 0x28] ++ acks ++
          if acks.length < (3#8).toNat then [at1 0x30] else [])) [] ∧
      5 * (3#8).toNat + 16 + pollCount acks ≤ s.pace)
    (buf 0xFFFD [] [ok 0x08, ok 0x18, ok 0x28, ok 0x28, ok 0x28, .notYet, ok 0x28, ok 0])
    [at1 0x28, at1 0x28, ⟨1, 0x28, 0⟩] ∧
    (fun s : State => s.Accepting ∧ [at1 0x28].length < (3#8).toNat ∧
      s.Hears (transaction s.held (at1 0) (at1 0)
        ([at1 0x08, at1 0x18, at1 0x28] ++ [at1 0x28] ++ [at1 0x30])) [])
    (buf 0x0100 [] [ok 0x08, ok 0x18, ok 0x28, ok 0x28, ok 0x30, ok 0]) ∧
    (fun s : State => s.BufferUsable (.wrbuf 0x50 0 0) ∧ ([] : List Reply).length ≤ (0#8).toNat ∧
      s.Hears (transaction s.held (at1 0) (at1 0) [at1 0x08, at1 0x18, at1 0x28]) [])
    (buf 0xFFFF [] [ok 0x08, ok 0x18, ok 0x28, ok 0]) := by decide

/-- Both clauses: each command completes on these answers. -/
theorem witness_WrsingleIsWrbufOfOne :
    (fun s : State => s.Accepting ∧ s.unset.bufptr = false ∧ s.admitsRead s.bufptr.toNat = true ∧
      leads (exec (.wrsingle 0x50 0 (s.mem.read s.bufptr.toNat)) s) (fun t => !t.busy) = true ∧
      leads (exec (.wrbuf 0x50 0 1) s) (fun t => !t.busy) = true)
    (buf 0xFFFF [(65535, 7)] [ok 0x08, ok 0x18, .notYet, ok 0x28, ok 0x28, ok 0]) := by decide

theorem witness_RdbufDirectionFailures :
    (fun s : State => s.Accepting ∧ s.unset.bufptr = false ∧ s.bufptr.toNat + (1#8).toNat ≤ 65536 ∧
      Opens s.platform (at1 0x08) (at1 0x18) (at1 0x28) ∧
      20 + pollCount (transaction s.held (at1 0) (at1 0)
        [at1 0x08, at1 0x18, at1 0x28, at1 0x00, at1 0x40]) ≤ s.pace ∧
      (at1 0x00).status ∉ s.platform.startBytes ∧
      s.Hears (transaction s.held (at1 0) (at1 0)
        [at1 0x08, at1 0x18, at1 0x28, at1 0x00]) [])
    (buf 0xFFFF [] [ok 0x08, ok 0x18, ok 0x28, ok 0x00, ok 0]) ∧
    (fun s : State => (at1 0x10).status ∈ s.platform.startBytes ∧
      ¬ ackedAddress (at1 0x48).status ∧
      s.Hears (transaction s.held (at1 0) (at1 0)
        [at1 0x08, at1 0x18, at1 0x28, at1 0x10, at1 0x48]) [])
    (buf 0xFFFF [] [ok 0x08, ok 0x18, ok 0x28, ok 0x10, ok 0x48, ok 0]) := by decide

/-- Two bytes at the top of the space; and none. -/
theorem witness_RdbufFillsTheBuffer :
    (fun (s : State) (bytes : List Reply) => s.Accepting ∧ s.mem.Wf ∧
      s.BufferUsable (.rdbuf 0x50 0x10 2) ∧ Opens s.platform (at1 0x08) (at1 0x18) (at1 0x28) ∧
      Turns s.platform (at1 0x10) (at1 0x40) ∧ bytes.length = (2#8).toNat ∧
      (∀ r ∈ bytes.dropLast, r.status = dataRxAck) ∧
      s.Hears (transaction s.held (at1 0) (at1 0)
        ([at1 0x08, at1 0x18, at1 0x28, at1 0x10, at1 0x40] ++ bytes)) [] ∧
      5 * (2#8).toNat + 20 + pollCount bytes ≤ s.pace)
    (buf 0xFFFE [] [ok 0x08, ok 0x18, ok 0x28, ok 0x10, ok 0x40, .done 0x50 0xDE, .notYet,
      .done 0x58 0xAD, ok 0]) [⟨0, 0x50, 0xDE⟩, ⟨1, 0x58, 0xAD⟩] ∧
    (fun s : State => s.BufferUsable (.rdbuf 0x50 0x10 0) ∧
      ([] : List Reply).length = (0#8).toNat ∧ s.Hears (transaction s.held (at1 0) (at1 0)
        [at1 0x08, at1 0x18, at1 0x28, at1 0x10, at1 0x40]) [])
    (buf 0xFFFF [] [ok 0x08, ok 0x18, ok 0x28, ok 0x10, ok 0x40, ok 0]) := by decide

theorem witness_RdbufStopsAtABadByte :
    (fun (s : State) (good : List Reply) (bad : Reply) => s.Accepting ∧ s.mem.Wf ∧
      s.BufferUsable (.rdbuf 0x50 0x10 3) ∧ Opens s.platform (at1 0x08) (at1 0x18) (at1 0x28) ∧
      Turns s.platform (at1 0x10) (at1 0x40) ∧ (∀ r ∈ good, r.status = dataRxAck) ∧
      bad.status ≠ dataRxAck ∧ good.length + 1 < (3#8).toNat ∧
      s.Hears (transaction s.held (at1 0) (at1 0)
        ([at1 0x08, at1 0x18, at1 0x28, at1 0x10, at1 0x40] ++ good ++ [bad])) [] ∧
      5 * (3#8).toNat + 20 + pollCount good ≤ s.pace)
    (buf 0xFFFD [] [ok 0x08, ok 0x18, ok 0x28, ok 0x10, ok 0x40, .done 0x50 1,
      .done 0x58 2, ok 0]) [⟨0, 0x50, 1⟩] ⟨0, 0x58, 2⟩ := by decide

/-- The second byte of two is refused. -/
theorem witness_RefusedReadHaltsWrbuf :
    (fun (s : State) (acks : List Reply) => s.Accepting ∧ s.unset.bufptr = false ∧
      s.bufptr.toNat + (2#8).toNat ≤ 65536 ∧ acks.length < (2#8).toNat ∧
      (∀ k < acks.length, s.admitsRead (s.bufptr.toNat + k) = true) ∧
      s.admitsRead (s.bufptr.toNat + acks.length) = false ∧
      Opens s.platform (at1 0x08) (at1 0x18) (at1 0x28) ∧ (∀ r ∈ acks, r.status = dataTxAck) ∧
      s.Hears (approach s.held (at1 0) ([at1 0x08, at1 0x18, at1 0x28] ++ acks)) [] ∧
      5 * (2#8).toNat + 16 + pollCount acks ≤ s.pace)
    (withPlat { plat with holes := [⟨0x101, 1, true, false⟩] }
      (buf 0x0100 [] [ok 0x08, ok 0x18, ok 0x28, ok 0x28])) [at1 0x28] := by decide

/-- RB-10: the second byte of two is refused. -/
theorem witness_RefusedWriteHaltsRdbuf :
    (fun (s : State) (good : List Reply) (last : Reply) => s.Accepting ∧ s.mem.Wf ∧
      s.unset.bufptr = false ∧ s.bufptr.toNat + (2#8).toNat ≤ 65536 ∧ good.length < (2#8).toNat ∧
      (∀ k < good.length, s.admitsWrite (s.bufptr.toNat + k) = true) ∧
      s.admitsWrite (s.bufptr.toNat + good.length) = false ∧
      Opens s.platform (at1 0x08) (at1 0x18) (at1 0x28) ∧ Turns s.platform (at1 0x10) (at1 0x40) ∧
      (∀ r ∈ good, r.status = dataRxAck) ∧
      s.Hears (approach s.held (at1 0)
        ([at1 0x08, at1 0x18, at1 0x28, at1 0x10, at1 0x40] ++ good ++ [last])) [] ∧
      5 * (2#8).toNat + 20 + pollCount good ≤ s.pace)
    (withPlat { plat with holes := [⟨0x201, 1, false, true⟩] }
      (buf 0x0200 [] [ok 0x08, ok 0x18, ok 0x28, ok 0x10, ok 0x40, .done 0x50 0xDE,
        .done 0x58 0xAD])) [⟨0, 0x50, 0xDE⟩] ⟨0, 0x58, 0xAD⟩ := by decide

/-- WS-1 completes with the bus released; and under a limit of one poll a cleanup stop expires. -/
theorem witness_BufferedCommandsReleaseTheBus :
    (fun s t : State => buffered (.wrsingle 0x50 0x10 0xAB) = true ∧ s.Accepting ∧ t.busy = false ∧
      t.fault = false ∧ t.stoPend = false)
    (s0 [ok 0x08, ok 0x20, ok 0])
    (stateOr (s0 []) (exec (.wrsingle 0x50 0x10 0xAB) (s0 [ok 0x08, ok 0x20, ok 0]))) ∧
    exec (.wrsingle 0x50 0x10 0xAB) (s0 [ok 0x08, ok 0x20, ok 0]) =
      .next (stateOr (s0 []) (exec (.wrsingle 0x50 0x10 0xAB) (s0 [ok 0x08, ok 0x20, ok 0]))) ∧
    leads (exec (.wrsingle 0x50 0x10 0xAB)
        (withPlat { plat with pollLimit := some 1 } (s0 [ok 0x08, ok 0x20, .notYet])))
      (fun t => !t.busy && !t.fault && t.stoPend) = true := ⟨by decide, rfl, by decide⟩

/-- The same run of WS-1; the five results' clauses are by RESULT. -/
theorem witness_BufferedResults :
    leads (exec (.wrsingle 0x50 0x10 0xAB) (s0 [ok 0x08, ok 0x20, ok 0]))
      (fun t => !t.busy && !t.fault && t.result == .slaveAddressNotAcknowledging) = true ∧
    leads (exec (.wrsingle 0x50 0x10 0xAB)
        (withPlat { plat with pollLimit := some 1 } (s0 [.notYet, ok 0])))
      (fun t => !t.busy && !t.fault && t.result == .timeout) = true := by decide

theorem witness_InitFrame : ∃ t, exec (.init 1) (s0 []) = .next t := ⟨_, rfl⟩

theorem witness_StartFrame : ∃ t, exec (.start 0xA0) (s0 [ok 0x08, ok 0x18]) = .next t := ⟨_, rfl⟩

theorem witness_StopFrame : ∃ t, exec .stop (held .writing [ok 0]) = .next t := ⟨_, rfl⟩

theorem witness_WriteReadFrame :
    (∃ t, exec (.write 1) (held .writing [ok 0x28]) = .next t) ∧
    ∃ t, exec (.read true) (held .reading [ok 0x50]) = .next t := ⟨⟨_, rfl⟩, ⟨_, rfl⟩⟩

theorem witness_BufferedWriteFrame :
    (∃ t, exec (.wrbuf 0x50 0 1) (buf 0xFFFF [] [ok 0x08, ok 0x18]) = .next t) ∧
    ∃ t, exec (.wrsingle 0x50 0 1) (s0 [ok 0x08, ok 0x18]) = .next t := ⟨⟨_, rfl⟩, ⟨_, rfl⟩⟩

theorem witness_RdbufFrame :
    (buf 0xFFFF [] []).mem.Wf ∧
    ∃ t, exec (.rdbuf 0x50 0 1) (buf 0xFFFF [] [ok 0x08, ok 0x18]) = .next t := ⟨by decide, ⟨_, rfl⟩⟩

/-- A state in the middle of a WRBUF, the bus held, its next step a poll of a transmit. -/
theorem witness_StepKeepsInv :
    (running (.wrbuf 0x50 0 1) .ok [.writePoll 7, .sendNext, .stop, .result]
      (held .writing [ok 0x28])).Inv ∧
    ∃ t, step (running (.wrbuf 0x50 0 1) .ok [.writePoll 7, .sendNext, .stop, .result]
      (held .writing [ok 0x28])) = .next t := ⟨by decide, ⟨_, rfl⟩⟩

theorem witness_PlatformIsFixed : ∃ t, step (held .writing []) = .next t := ⟨_, rfl⟩

theorem witness_IdleStepRunsTheBlock :
    (running .stop .ok [.stop] (s0 [])).host = [] ∧
    (doing .idle (running .stop .ok [.stop] (s0 []))).host = .idle :: [] ∧
    (fun s : State => s.host = .waitIdle :: [] ∧ s.busy = true)
      (doing .waitIdle (running .stop .ok [.stop] (s0 []))) ∧
    (fun s : State => s.host = .waitIdle :: [] ∧ s.busy = false) (doing .waitIdle (s0 [])) := by
  decide

/-- The hypotheses of `BufferedTimeouts` but the one on the buffer, for a limit of two polls. -/
abbrev Expiring (i : Instr) (rs : List Reply) (s : State) : Prop :=
  buffered i = true ∧ s.Accepting ∧ s.mem.Wf ∧ s.platform.pollLimit = some 2 ∧
  rs.length < (busPlan s i).length ∧ (∀ c ∈ rs.zip (busPlan s i), c.1.status ∈ c.2.2) ∧
  s.Hears (approach s.held (at1 0) rs) (List.replicate 2 .notYet ++ repliesTo [at1 0] []) ∧
  waitAllowed s.platform (at1 0).polls ∧
  5 * cmdLen i + 20 + pollCount (transaction s.held (at1 0) (at1 0) rs) + 2 ≤ s.pace

/-- WRSINGLE whose first operation expires; WRBUF at its second byte, the bus held at entry; and RDBUF at its
second byte of two, after a wait. -/
theorem witness_BufferedTimeouts :
    (fun s : State => Expiring (.wrsingle 0x50 0 1) [] s ∧ s.BufferUsable (.wrsingle 0x50 0 1))
    (withPlat { plat with pollLimit := some 2 } (s0 [.notYet, .notYet, ok 0])) ∧
    (fun s : State => Expiring (.wrbuf 0x50 0 2) [at1 0x08, at1 0x18, at1 0x28, at1 0x28] s ∧
      s.BufferUsable (.wrbuf 0x50 0 2))
    (withPlat { plat with pollLimit := some 2 }
      { buf 0xFFFE [] [ok 0, ok 0x08, ok 0x18, ok 0x28, ok 0x28, .notYet, .notYet, ok 0] with
        held := true, phase := .writing }) ∧
    (fun s : State => Expiring (.rdbuf 0x50 0 2)
        [at1 0x08, at1 0x18, at1 0x28, at1 0x10, at1 0x40, ⟨1, 0x50, 9⟩] s ∧
      s.BufferUsable (.rdbuf 0x50 0 2))
    (withPlat { plat with pollLimit := some 2 }
      (buf 0xFFFE [] [ok 0x08, ok 0x18, ok 0x28, ok 0x10, ok 0x40, .notYet, .done 0x50 9, .notYet,
        .notYet, ok 0])) := ⟨by decide, by decide, by decide⟩

/-- A write in a running buffer and one outside any; a read outside a race and one in it. -/
theorem witness_HostSharesTheBuffer :
    (fun s : State => s.mem.Wf ∧ s.host = .bufWrite 0xFFFF 1 :: [] ∧ s.busy = true ∧
      s.run.inBuffer (0xFFFF#16).toNat = true)
      { running (.wrbuf 0 0 1) .ok [.sendLoop] (doing (.bufWrite 0xFFFF 1) (s0 [])) with
        run := { Run.reset with cmd := .wrbuf 0 0 1, lbuf := 0xFFFF, todo := [.sendLoop] } } ∧
    (fun s : State => s.host = .bufWrite 0 1 :: [] ∧ s.busy = false)
      (doing (.bufWrite 0 1) (s0 [])) ∧
    (fun s : State => s.host = .bufRead 0 :: [] ∧ s.busy = false) (doing (.bufRead 0) (s0 [])) ∧
    (fun s : State => s.host = .bufRead 0 :: [] ∧ s.busy = true ∧ fillsBuffer s.run.cmd = true ∧
      s.run.earlier 0 = [7])
      { doing (.bufRead 0) (running (.rdbuf 0 0 1) .ok [.stop] (s0 [])) with
        run := { Run.reset with cmd := .rdbuf 0 0 1, todo := [.stop], olds := [(0, 7)] } } ∧
    (s0 []).admitsRead 65535 = true := by decide

/-- OTHER bytes next to a listed one, and the last byte. -/
theorem witness_OtherStatusesFail :
    (∀ b : BusStatus, b.code ≠ { s0 [] with tws := 0x09 }.tws) ∧
    ∀ b : BusStatus, b.code ≠ { s0 [] with tws := 0xFF }.tws :=
  ⟨fun b => by cases b <;> decide, fun b => by cases b <;> decide⟩

end Sys2Proof.Machine.Tests
end

section
/-! SUPPORT. Buffer accesses by the platform's decision (spec 20_memory.md R52, R53), what a register
word reads as bit by bit (R56), and the step of each kind of register access (R56, R57). -/

namespace Sys2Proof.Machine

/-! ## Buffer accesses, admitted and refused -/

theorem State.memRead_admitted {s : State} {a : Nat} (h : s.admitsRead a = true) :
    s.memRead a = some (s.racedByte a) := if_pos h

theorem State.memRead_refused {s : State} {a : Nat} (h : s.admitsRead a = false) :
    s.memRead a = none := if_neg (by simp [h])

theorem State.memWrite_admitted {s : State} {a : Nat} (v : Byte) (h : s.admitsWrite a = true) :
    s.memWrite a v = some { s with mem := s.mem.write a v } := if_pos h

theorem State.memWrite_refused {s : State} {a : Nat} (v : Byte) (h : s.admitsWrite a = false) :
    s.memWrite a v = none := if_neg (by simp [h])

@[simp] theorem State.noteOld_admitsWrite (s : State) (a b : Nat) :
    (s.noteOld a).admitsWrite b = s.admitsWrite b := rfl

theorem State.admitsWrite_lt {s : State} {a : Nat} (h : s.admitsWrite a = true) :
    a < Config.bufSpace :=
  let ⟨_, hlt, _⟩ := State.memWrite_cases (State.memWrite_admitted 0 h)
  hlt

/-! ## F_BUF_ACCESS (60_exceptions.md R203) -/

@[simp] theorem State.raise_mem (c : Cause) (s : State) : (s.raise c).mem = s.mem := by
  unfold State.raise; dsimp only; split <;> split <;> rfl

@[simp] theorem State.raise_bufAccess_busy (s : State) : (s.raise .bufAccess).busy = false := rfl

/-- WRBUF's loop at a byte the platform refuses to read. -/
theorem State.sendLoopStep_refused {s : State} (rest : List Task) (hst : s.run.st = .ok)
    (hidx : s.run.idx < s.run.len) (hr : s.admitsRead s.run.addr = false) :
    s.sendLoopStep rest = s.raise .bufAccess := by
  rw [State.sendLoopStep, if_pos ⟨hst, hidx⟩, State.memRead_refused hr]

/-- RDBUF's store at a byte the platform refuses to write: the fault, from the state before the store. -/
theorem State.storeStep_refused {s : State} (rest : List Task) (hst : s.run.st = .ok)
    (hw : s.admitsWrite s.run.addr = false) : s.storeStep rest = s.raise .bufAccess := by
  rw [State.storeStep, State.whenOk, if_pos hst, State.memWrite_refused _ (by simpa using hw)]

/-! ## The bits of a register word (20_memory.md R56) -/

/-- The bits above a register in the low bits of its word read 0. -/
theorem extractLsb'_setWidth_high {w n start : Nat} (len : Nat) (v : BitVec w) (h : w ≤ start) :
    (v.setWidth n).extractLsb' start len = 0 := by
  ext i hi
  simp [BitVec.getLsbD_of_ge v (start + i) (by omega)]

/-- A field whose contents are specified reads as them (10_state.md R42). -/
@[simp] theorem State.orFree_specified {w : Nat} (s : State) (lo : Nat) (v : BitVec w) :
    s.orFree false lo v = v := rfl

/-- A register alone in its word: its contents at the bottom, when they are specified, and 0 above. -/
theorem State.orFree_word_bits {w : Nat} (s : State) (unset : Bool) (v : BitVec w) (len : Nat)
    (hw : w ≤ 32) :
    (unset = false → ((s.orFree unset 0 v).setWidth 32).extractLsb' 0 w = v) ∧
      ((s.orFree unset 0 v).setWidth 32).extractLsb' w len = 0 := by
  refine ⟨?_, extractLsb'_setWidth_high len _ le_rfl⟩
  rintro rfl
  rw [State.orFree_specified, BitVec.extractLsb'_setWidth_of_le (by omega),
    BitVec.extractLsb'_eq_self]

@[simp] theorem State.hostRead_hostData (off : Nat) (s : State) :
    (s.hostRead off).hostData = s.hostView off := rfl

theorem State.hostView_bufptr_bits (s : State) :
    (s.unset.bufptr = false → (s.hostView 0x04).extractLsb' 0 16 = s.bufptr) ∧
      (s.hostView 0x04).extractLsb' 16 16 = 0 :=
  s.orFree_word_bits s.unset.bufptr _ 16 (by decide)

/-- The widths stay sums (no `Nat.reduceAdd`), so that the two lemmas on `++` match at each field. -/
theorem State.hostView_ctrlstat_bits (s : State) :
    (s.hostView 0x08).getLsbD 0 = s.busy ∧ (s.hostView 0x08).getLsbD 1 = s.fault ∧
      (s.hostView 0x08).getLsbD 2 = s.configured ∧ (s.hostView 0x08).getLsbD 3 = s.held ∧
      (s.hostView 0x08).extractLsb' 4 3 = s.phase.code ∧ (s.hostView 0x08).getLsbD 7 = false ∧
      (s.hostView 0x08).extractLsb' 8 4 = s.fcause.code ∧
      (s.hostView 0x08).extractLsb' 12 20 = 0 := by
  simp [State.hostView, State.ctrlstat, BitVec.getLsbD_append, BitVec.extractLsb'_append_eq_ite,
    -Nat.reduceAdd, -BitVec.getLsbD_eq_getElem]

theorem State.hostView_result_bits (s : State) :
    (s.unset.result = false → (s.hostView 0x0C).extractLsb' 0 3 = s.result.code) ∧
      (s.hostView 0x0C).extractLsb' 3 29 = 0 :=
  s.orFree_word_bits s.unset.result _ 29 (by decide)

theorem State.hostView_rdata_bits (s : State) :
    (s.unset.rdata = false → (s.hostView 0x10).extractLsb' 0 8 = s.rdata) ∧
      (s.hostView 0x10).extractLsb' 8 24 = 0 :=
  s.orFree_word_bits s.unset.rdata _ 24 (by decide)

/-- CLKCFG holds two registers, DIV below PS; each is read back when its own contents are specified. -/
theorem State.hostView_clkcfg_bits (s : State) :
    (s.unset.div = false → (s.hostView 0x14).extractLsb' 0 8 = s.div) ∧
      (s.unset.ps = false → (s.hostView 0x14).extractLsb' 8 2 = s.ps) ∧
      (s.hostView 0x14).extractLsb' 10 22 = 0 := by
  refine ⟨fun h => ?_, fun h => ?_, extractLsb'_setWidth_high 22 _ (by decide)⟩
  · calc (s.hostView 0x14).extractLsb' 0 8
        = ((s.orFree s.unset.ps 8 s.ps) ++ (s.orFree s.unset.div 0 s.div)).extractLsb' 0 8 :=
          BitVec.extractLsb'_setWidth_of_le (by decide)
      _ = s.div := by rw [BitVec.extractLsb'_append_eq_right, h, State.orFree_specified]
  · calc (s.hostView 0x14).extractLsb' 8 2
        = ((s.orFree s.unset.ps 8 s.ps) ++ (s.orFree s.unset.div 0 s.div)).extractLsb' 8 2 :=
          BitVec.extractLsb'_setWidth_of_le (by decide)
      _ = s.ps := by rw [BitVec.extractLsb'_append_eq_left, h, State.orFree_specified]

theorem State.hostView_tws_bits (s : State) :
    (s.unset.tws = false → (s.hostView 0x18).extractLsb' 0 8 = s.tws) ∧
      (s.hostView 0x18).extractLsb' 8 24 = 0 :=
  s.orFree_word_bits s.unset.tws _ 24 (by decide)

/-! ## The step of a register access -/

/-- A write to CMD issues the command (20_memory.md R56). -/
theorem step_write_cmd {s : State} {rest : List HostAct} {w : Word}
    (hh : s.host = .write 4 s.platform.regBase w :: rest) :
    step s = accept w { s with host := rest } :=
  (step_write (off := 0) rfl hh).trans (if_pos rfl)

/-- A write to BUFPTR takes the low 16 bits of the word (20_memory.md R56). -/
theorem step_write_bufptr {s : State} {rest : List HostAct} {v : Word}
    (hh : s.host = .write 4 (s.platform.regBase + 0x04) v :: rest) :
    step s = .next (({ s with host := rest } : State).setBufptr (v.extractLsb' 0 16)) := by
  rw [step_write rfl hh, if_neg (by decide), State.hostWrite, if_pos rfl,
    BitVec.setWidth_eq_extractLsb' (by decide)]

/-- Every other register and every undecoded offset ignores a write (20_memory.md R56). -/
theorem step_write_ignored {s : State} {rest : List HostAct} {off : Nat} {v : Word}
    (h : off % 4 = 0) (hcmd : off ≠ 0x00) (hbuf : off ≠ 0x04)
    (hh : s.host = .write 4 (s.platform.regBase + off) v :: rest) :
    step s = .next { s with host := rest } := by
  rw [step_write h hh, if_neg hcmd, State.hostWrite, if_neg hbuf]

/-- A word written to CMD, legal or not, always has a next state. -/
theorem accept_next (w : Word) (s : State) : ∃ t, accept w s = .next t := by
  unfold accept
  cases decode w with
  | none => exact ⟨_, rfl⟩
  | some i =>
    obtain ⟨t, ht, -⟩ := exec_issued i s
    exact ⟨t, ht⟩

/-- An aligned write of a whole word has a next state, at CMD and elsewhere. -/
theorem step_write_next {s : State} {rest : List HostAct} {off : Nat} {v : Word} (h : off % 4 = 0)
    (hh : s.host = .write 4 (s.platform.regBase + off) v :: rest) : ∃ t, step s = .next t := by
  rw [step_write h hh]
  split
  · exact accept_next v _
  · exact ⟨_, rfl⟩

/-- The port does not carry an access of another width or at a misaligned offset (20_memory.md R57). -/
theorem wordAccess_odd {bytes off : Nat} (h : bytes ≠ 4 ∨ off % 4 ≠ 0) :
    wordAccess bytes off = false := by
  rcases h with h | h <;> simp [wordAccess, h]

theorem State.regAccess_odd (s : State) {bytes off : Nat}
    (k : Nat → Host.Outcome State Fault Refusal) (h : bytes ≠ 4 ∨ off % 4 ≠ 0) :
    s.regAccess bytes (s.platform.regBase + off) k = .refused (.hostAccess bytes off) :=
  (s.regAccess_at bytes off k).trans (if_neg (by simp [wordAccess_odd h]))

theorem step_read_odd {s : State} {rest : List HostAct} {bytes off : Nat}
    (h : bytes ≠ 4 ∨ off % 4 ≠ 0)
    (hh : s.host = .read bytes (s.platform.regBase + off) :: rest) :
    step s = .refused (.hostAccess bytes off) := by
  unfold step; rw [hh]; exact State.regAccess_odd { s with host := rest } _ h

theorem step_write_odd {s : State} {rest : List HostAct} {bytes off : Nat} {v : Word}
    (h : bytes ≠ 4 ∨ off % 4 ≠ 0)
    (hh : s.host = .write bytes (s.platform.regBase + off) v :: rest) :
    step s = .refused (.hostAccess bytes off) := by
  unfold step; rw [hh]; exact State.regAccess_odd { s with host := rest } _ h

/-! ## The obligations of 20_memory.md R52, R53, R56 and R57 -/

/-- Settles O9: a refused read ends the body with BUSY cleared, so the block does nothing more. -/
theorem memReadAdmittedOrFault : Obligations.MemReadAdmittedOrFault := by
  refine ⟨fun s a h => State.memRead_refused h, fun s a ha hrace => ?_,
    fun s rest _ htodo hst hidx hr => ?_⟩
  · rw [State.memRead_admitted ha, State.racedByte_exact hrace]
  · have hm : s.micro = s.raise .bufAccess :=
      (State.micro_cons htodo).trans (State.sendLoopStep_refused rest hst hidx hr)
    rw [hm]
    exact ⟨rfl, s.raise_bufAccess_busy,
      fun n => State.runBlock_idle n _ s.raise_bufAccess_busy⟩

/-- Settles O10, by the law of a read after a write. -/
theorem memWriteAdmittedOrFault : Obligations.MemWriteAdmittedOrFault := by
  refine ⟨fun s a v hwf ha => ?_, fun s rest _ htodo hst hw => ?_⟩
  · refine ⟨_, State.memWrite_admitted v ha, rfl,
      Memory.wf_write hwf (State.admitsWrite_lt ha) v, fun b => ?_⟩
    simpa only [eq_comm] using Memory.read_write hwf a b v
  · have hm : s.micro = s.raise .bufAccess :=
      (State.micro_cons htodo).trans (State.storeStep_refused rest hst hw)
    rw [hm]
    exact ⟨rfl, s.raise_mem _, s.raise_bufAccess_busy⟩

/-- Settles O18: each kind of write by its step, and a read by the bits of the register's word. -/
theorem registerMap : Obligations.RegisterMap := by
  refine fun s rest => ⟨fun w hh => step_write_cmd hh, fun v hh => step_write_bufptr hh,
    fun off v h hcmd hbuf hh => step_write_ignored h hcmd hbuf hh, fun off h hh => ?_⟩
  refine ⟨_, step_read h hh, ?_⟩
  rw [State.hostRead_hostData]
  refine ⟨?_, ?_, ?_, ?_, ?_, ?_, ?_⟩ <;> rintro rfl
  · rfl
  · exact State.hostView_bufptr_bits _
  · exact State.hostView_ctrlstat_bits _
  · exact State.hostView_result_bits _
  · exact State.hostView_rdata_bits _
  · exact State.hostView_clkcfg_bits _
  · exact State.hostView_tws_bits _

/-- Settles O19: the port carries an access exactly when it is one aligned word. -/
theorem oddAccessesAreRefused : Obligations.OddAccessesAreRefused := by
  refine fun s rest bytes off v => ⟨fun hh => ⟨fun h => step_read_odd h hh, ?_⟩,
    fun hh => ⟨fun h => step_write_odd h hh, ?_⟩⟩
  · rintro rfl h
    exact ⟨_, step_read h hh⟩
  · rintro rfl h
    exact step_write_next h hh

end Sys2Proof.Machine
end

section
/-! SUPPORT. `Decode` on the fields of a word (spec 30_encoding.md R74, R75), the masks of the opcode map
as statements about fields (R73), and the assembler's words (R77, R78). -/

namespace Sys2Proof

/-! ## The fields that decode -/

/-- The opcodes by their "must be 0" column, and those that the opcode map leaves out (R73, R75). -/
theorem opcode_cases : ∀ op : BitVec 4,
    (op = 0 ∨ 9 ≤ op.toNat) ∨ (op = 1 ∨ op = 2 ∨ op = 4) ∨ op = 3 ∨ op = 5 ∨
      (op = 6 ∨ op = 7 ∨ op = 8) := by decide

theorem Fields.decode_reserved {f : Fields} (h : f.rsv ≠ 0) : f.decode = none := if_pos h

theorem Fields.decode_unassigned {f : Fields} (h : f.op = 0 ∨ 9 ≤ f.op.toNat) :
    f.decode = none := by
  have hop : f.op.toNat = 0 ∨ 9 ≤ f.op.toNat := h.imp_left fun h => by rw [h]; rfl
  unfold Fields.decode
  split
  · rfl
  · split
    case h_9 => rfl
    all_goals omega

/-- R75 on fields: what the opcode map has no row for. -/
theorem Fields.decode_eq_none_iff (f : Fields) :
    f.decode = none ↔
      (f.op = 0 ∨ 9 ≤ f.op.toNat) ∨ f.rsv ≠ 0 ∨
      ((f.op = 1 ∨ f.op = 2 ∨ f.op = 4) ∧ (f.k ≠ 0 ∨ f.a ≠ 0 ∨ f.b ≠ 0)) ∨
      (f.op = 3 ∧ (f.k ≠ 0 ∨ f.a ≠ 0 ∨ f.b ≠ 0 ∨ f.c ≠ 0)) ∨
      (f.op = 5 ∧ (f.a ≠ 0 ∨ f.b ≠ 0 ∨ f.c ≠ 0)) ∨
      ((f.op = 6 ∨ f.op = 7 ∨ f.op = 8) ∧ (f.k ≠ 0 ∨ f.a.getLsbD 7 = true)) := by
  obtain ⟨op, rsv, k, a, b, c⟩ := f
  by_cases hrsv : rsv = 0
  case neg => exact iff_of_true (Fields.decode_reserved hrsv) (.inr (.inl hrsv))
  obtain hop | hop | rfl | rfl | hop := opcode_cases op
  · exact iff_of_true (Fields.decode_unassigned hop) (.inl hop)
  · obtain rfl | rfl | rfl := hop <;> simp [Fields.decode, hrsv, imp_iff_not_or]
  · simp [Fields.decode, hrsv, imp_iff_not_or]
  · simp [Fields.decode, hrsv, imp_iff_not_or]
  · obtain rfl | rfl | rfl := hop <;> simp [Fields.decode, hrsv, imp_iff_not_or]

/-- The seven bits under A[7] hold all of field A exactly when A[7] = 0 (R72). -/
theorem setWidth_seven_eight {a : BitVec 8} :
    (a.setWidth 7).setWidth 8 = a ↔ a.getLsbD 7 = false := by
  refine ⟨fun h => h ▸ Laws.Legal.dev_top _, fun h => BitVec.eq_of_getLsbD_eq fun n hn => ?_⟩
  obtain rfl | hn : n = 7 ∨ n < 7 := by omega
  · rw [h, Laws.Legal.dev_top]
  · simp [hn, Nat.lt_succ_of_lt hn]

theorem ofBool_beq_one : ∀ k : BitVec 1, BitVec.ofBool (k == 1) = k := by decide

/-- Fields that decode are the fields the command is written with. -/
theorem Fields.fields_of_decode {f : Fields} {i : Instr} (h : f.decode = some i) :
    i.fields = f := by
  obtain ⟨op, rsv, k, a, b, c⟩ := f
  by_cases hrsv : rsv = 0
  case neg => cases (Fields.decode_reserved hrsv).symm.trans h
  subst hrsv
  obtain hop | hop | rfl | rfl | hop := opcode_cases op
  · cases (Fields.decode_unassigned hop).symm.trans h
  · obtain rfl | rfl | rfl := hop <;>
    · obtain ⟨⟨rfl, rfl, rfl⟩, ⟨⟩⟩ := Option.ite_none_right_eq_some.1 h
      rfl
  · obtain ⟨⟨rfl, rfl, rfl, rfl⟩, ⟨⟩⟩ := Option.ite_none_right_eq_some.1 h
    rfl
  · obtain ⟨⟨rfl, rfl, rfl⟩, ⟨⟩⟩ := Option.ite_none_right_eq_some.1 h
    exact congrArg (Fields.mk 5 0 · 0 0 0) (ofBool_beq_one k)
  · obtain rfl | rfl | rfl := hop <;>
    · obtain ⟨⟨rfl, ha⟩, ⟨⟩⟩ := Option.ite_none_right_eq_some.1 h
      simp [Instr.fields, setWidth_seven_eight.2 ha]

theorem Fields.decode_fields (i : Instr) : i.fields.decode = some i := by
  cases i with
  | init rate => rfl
  | start sla => rfl
  | stop => rfl
  | write byte => rfl
  | read ack => cases ack <;> rfl
  | wrbuf dev sub x | wrsingle dev sub x | rdbuf dev sub x =>
    simp [Instr.fields, Fields.decode, BitVec.setWidth_setWidth_of_le]

/-- A word decodes to the one command whose fields are the word's. -/
theorem decode_eq_some_iff {w : Word} {i : Instr} :
    decode w = some i ↔ i.fields = Fields.ofWord w := by
  refine ⟨Fields.fields_of_decode, fun h => ?_⟩
  rw [decode, ← h, Fields.decode_fields]

/-! ## The masks of the opcode map, field by field -/

theorem Fields.ofWord_inj {w v : Word} : Fields.ofWord w = Fields.ofWord v ↔ w = v := by
  refine ⟨fun h => ?_, congrArg _⟩
  rw [← Fields.toWord_ofWord w, h, Fields.toWord_ofWord]

/-- A word ANDed with a mask, field by field. -/
theorem and_eq_iff_fields {w m v : Word} {f : Fields} (hm : Fields.ofWord m = f) :
    w &&& m = v ↔ Fields.ofWord v =
      ⟨w.extractLsb' 28 4 &&& f.op, w.extractLsb' 25 3 &&& f.rsv, w.extractLsb' 24 1 &&& f.k,
        w.extractLsb' 16 8 &&& f.a, w.extractLsb' 8 8 &&& f.b, w.extractLsb' 0 8 &&& f.c⟩ := by
  rw [eq_comm, ← Fields.ofWord_inj, ← hm]
  simp only [Fields.ofWord, BitVec.extractLsb'_and]

theorem extractLsb'_one (w : Word) (n : Nat) :
    w.extractLsb' n 1 = BitVec.ofBool (w.getLsbD n) := by
  ext i hi
  obtain rfl : i = 0 := by omega
  simp

/-- Seven bits of a word hold eight exactly when the eighth is 0. -/
theorem extractLsb'_seven_eight {w : Word} {n : Nat} :
    (w.extractLsb' n 7).setWidth 8 = w.extractLsb' n 8 ↔ w.getLsbD (n + 7) = false := by
  rw [← BitVec.setWidth_extractLsb'_of_le (by decide : 7 ≤ 8), setWidth_seven_eight]
  simp

/-- Seven bits that give eight are the low seven of them. -/
theorem eq_extractLsb'_seven {dev : BitVec 7} {w : Word} {n : Nat}
    (h : dev.setWidth 8 = w.extractLsb' n 8) : dev = w.extractLsb' n 7 := by
  rw [← BitVec.setWidth_extractLsb'_of_le (by decide : 7 ≤ 8), ← h,
    BitVec.setWidth_setWidth_of_le _ (by decide), BitVec.setWidth_eq]

/-- A mask with A[7] alone in field A. -/
theorem zero_eq_and_top {a : BitVec 8} : 0#8 = a &&& .twoPow 8 7 ↔ a.getLsbD 7 = false := by
  rw [BitVec.and_twoPow]
  cases a.getLsbD 7 <;> decide

/-! ### Each row, by the fields its mask keeps: `v` is the row's match and `op` its opcode. -/

section
variable {w v : Word} {op : BitVec 4} (hv : Fields.ofWord v = ⟨op, 0, 0, 0, 0, 0⟩)
include hv

/-- INIT, START and WRITE: every field but C. -/
theorem byteRow_iff :
    ⟨op, 0, 0, 0, 0, w.extractLsb' 0 8⟩ = Fields.ofWord w ↔ w &&& 0xFFFFFF00#32 = v := by
  rw [and_eq_iff_fields
    (f := ⟨.allOnes 4, .allOnes 3, .allOnes 1, .allOnes 8, .allOnes 8, 0⟩) rfl, hv]
  simp [Fields.ofWord, -BitVec.reduceAllOnes]

/-- STOP: every field. -/
theorem stopRow_iff : ⟨op, 0, 0, 0, 0, 0⟩ = Fields.ofWord w ↔ w &&& 0xFFFFFFFF#32 = v := by
  rw [and_eq_iff_fields
    (f := ⟨.allOnes 4, .allOnes 3, .allOnes 1, .allOnes 8, .allOnes 8, .allOnes 8⟩) rfl, hv]
  simp [Fields.ofWord, -BitVec.reduceAllOnes]

/-- READ: every field but K. -/
theorem readRow_iff :
    ⟨op, 0, BitVec.ofBool (w.getLsbD 24), 0, 0, 0⟩ = Fields.ofWord w ↔
      w &&& 0xFEFFFFFF#32 = v := by
  rw [and_eq_iff_fields
    (f := ⟨.allOnes 4, .allOnes 3, 0, .allOnes 8, .allOnes 8, .allOnes 8⟩) rfl, hv]
  simp [Fields.ofWord, extractLsb'_one, -BitVec.reduceAllOnes]

/-- WRBUF, WRSINGLE and RDBUF: OP, RSV, K and A[7]. -/
theorem bufferedRow_iff :
    ⟨op, 0, 0, (w.extractLsb' 16 7).setWidth 8, w.extractLsb' 8 8, w.extractLsb' 0 8⟩ =
      Fields.ofWord w ↔ w &&& 0xFF800000#32 = v := by
  rw [and_eq_iff_fields
    (f := ⟨.allOnes 4, .allOnes 3, .allOnes 1, .twoPow 8 7, 0, 0⟩) rfl, hv]
  simp [Fields.ofWord, extractLsb'_seven_eight, zero_eq_and_top, -BitVec.reduceAllOnes]

end

/-- The commands a word can stand for: one for each row of the opcode map, its operands cut from their
fields (R72, R73). -/
def rowCommands (w : Word) : List Instr :=
  [.init (w.extractLsb' 0 8), .start (w.extractLsb' 0 8), .stop, .write (w.extractLsb' 0 8),
    .read (w.getLsbD 24), .wrbuf (w.extractLsb' 16 7) (w.extractLsb' 8 8) (w.extractLsb' 0 8),
    .wrsingle (w.extractLsb' 16 7) (w.extractLsb' 8 8) (w.extractLsb' 0 8),
    .rdbuf (w.extractLsb' 16 7) (w.extractLsb' 8 8) (w.extractLsb' 0 8)]

/-- A command's operands are the fields of its word, so a word decodes to none but these. -/
theorem decode_mem_rowCommands {w : Word} {i : Instr} (h : decode w = some i) :
    i ∈ rowCommands w := by
  have hi := decode_eq_some_iff.1 h
  cases i with
  | init x | start x | write x =>
    obtain rfl : x = w.extractLsb' 0 8 := congrArg Fields.c hi
    simp [rowCommands]
  | stop => simp [rowCommands]
  | read ack =>
    obtain rfl : ack = w.getLsbD 24 :=
      BitVec.ofBool_eq_iff_eq.1 ((congrArg Fields.k hi).trans (extractLsb'_one w 24))
    simp [rowCommands]
  | wrbuf dev sub x | wrsingle dev sub x | rdbuf dev sub x =>
    obtain rfl : dev = w.extractLsb' 16 7 := eq_extractLsb'_seven (congrArg Fields.a hi)
    obtain rfl : sub = w.extractLsb' 8 8 := congrArg Fields.b hi
    obtain rfl : x = w.extractLsb' 0 8 := congrArg Fields.c hi
    simp [rowCommands]

theorem decode_eq_none_iff_rowCommands {w : Word} :
    decode w = none ↔ ∀ i ∈ rowCommands w, ¬ decode w = some i := by
  refine ⟨fun h i _ hi => ?_, fun h => ?_⟩
  · cases h.symm.trans hi
  · exact Option.eq_none_iff_forall_ne_some.2 fun i hi => h i (decode_mem_rowCommands hi) hi

end Sys2Proof

namespace Sys2Proof.Machine

/-- Settles O3: a word decodes to the command whose fields are its own, and each row's mask keeps exactly the
fields the row fixes; so no row matches exactly when the word decodes to none of the rows' commands. -/
theorem decodeFollowsOpcodeMap : Obligations.DecodeFollowsOpcodeMap := by
  intro w
  have row {i : Instr} {m v : Word} (h : i.fields = Fields.ofWord w ↔ w &&& m = v) :
      decode w = some i ↔ w &&& m = v := decode_eq_some_iff.trans h
  have hinit := row (i := .init _) (byteRow_iff (v := 0x10000000#32) rfl)
  have hstart := row (i := .start _) (byteRow_iff (v := 0x20000000#32) rfl)
  have hstop := row (i := .stop) (stopRow_iff (v := 0x30000000#32) rfl)
  have hwrite := row (i := .write _) (byteRow_iff (v := 0x40000000#32) rfl)
  have hread := row (i := .read _) (readRow_iff (v := 0x50000000#32) rfl)
  have hwrbuf := row (i := .wrbuf _ _ _) (bufferedRow_iff (v := 0x60000000#32) rfl)
  have hwrsingle := row (i := .wrsingle _ _ _) (bufferedRow_iff (v := 0x70000000#32) rfl)
  have hrdbuf := row (i := .rdbuf _ _ _) (bufferedRow_iff (v := 0x80000000#32) rfl)
  refine ⟨hinit, hstart, hstop, hwrite, hread, hwrbuf, hwrsingle, hrdbuf, ?_⟩
  simp only [decode_eq_none_iff_rowCommands, rowCommands, List.forall_mem_cons, hinit, hstart, hstop,
    hwrite, hread, hwrbuf, hwrsingle, hrdbuf, List.not_mem_nil, false_imp_iff, implies_true, and_true]

/-! ## An illegal word at CMD -/

theorem State.screen_ready {s : State} (k : State → State) (h : s.Ready) : s.screen k = k s := by
  obtain ⟨hfault, hbusy⟩ := h
  rw [State.screen, hfault, hbusy]; rfl

theorem State.raise_first {s : State} {c : Cause} (h : s.fault = false) (hc : c ≠ .bufAccess) :
    s.raise c = { s with fault := true, fcause := c } := by
  rw [State.raise, h]
  exact if_neg hc

/-- An illegal word on a ready block (60_exceptions.md R201). -/
theorem accept_illegal {w : Word} {s : State} (hw : decode w = none) (hs : s.Ready) :
    accept w s = .next { s with fault := true, fcause := .illegal } := by
  rw [accept, hw]
  exact congrArg _ ((s.screen_ready _ hs).trans (State.raise_first hs.1 (by decide)))

/-- Settles O4: the illegal fields by the opcodes' "must be 0" columns, and the fault by R201's order, in which
the checks of FAULT and BUSY come first and are passed. -/
theorem illegalWordsFault : Obligations.IllegalWordsFault := by
  refine ⟨fun w => ?_, fun s rest w hh hs hw => ?_⟩
  · have hk : w.extractLsb' 24 1 ≠ 0 ↔ w.getLsbD 24 = true := by
      rw [extractLsb'_one]
      cases w.getLsbD 24 <;> decide
    have ha : (w.extractLsb' 16 8).getLsbD 7 = w.getLsbD 23 := by simp
    rw [← hk, ← ha]
    exact (Fields.ofWord w).decode_eq_none_iff
  · rw [step_write_cmd hh]
    exact accept_illegal hw hs

/-! ## The assembler (30_encoding.md R77 to R79) -/

theorem decode_encode (i : Instr) : decode (encode i) = some i := by
  rw [decode_eq_some_iff, encode, Fields.ofWord_toWord]

theorem assemble_eq_some_iff {x : Asm} {w : Word} :
    assemble x = some w ↔ x.wellFormed = true ∧ encode x.toInstr = w := by
  simp [assemble]

/-- The word a line assembles to decodes to the line's command. -/
theorem decode_of_assemble {x : Asm} {w : Word} (h : assemble x = some w) :
    decode w = some x.toInstr := by
  obtain ⟨-, rfl⟩ := assemble_eq_some_iff.1 h
  exact decode_encode _

/-- Settles O5: the lines are evaluated, and each word decodes to its command because it was assembled. -/
theorem specEncodings : Obligations.SpecEncodings := by
  refine (and_iff_left_of_imp ?_).2 (by decide)
  rintro ⟨hinit1, hinit4, hstartW, hstartR, hstop, hwrite, hack, hnack, hwrbuf, hwrsingle, hrdbuf⟩
  exact ⟨decode_of_assemble hinit1, decode_of_assemble hinit4, decode_of_assemble hstartW,
    decode_of_assemble hstartR, decode_of_assemble hstop, decode_of_assemble hwrite,
    decode_of_assemble hack, decode_of_assemble hnack, decode_of_assemble hwrbuf,
    decode_of_assemble hwrsingle, decode_of_assemble hrdbuf, by decide⟩

theorem encode_start (a : Byte) : encode (.start a) = 0x20000000#32 ||| a.setWidth 32 := by
  calc encode (.start a) = (2#4 ++ 0#3 ++ 0#1 ++ 0#8 ++ 0#8) ++ a := rfl
    _ = 0x200000#24 ++ a := congrArg (fun x : BitVec 24 => x ++ a) (by decide)
    _ = (0x200000#24 ++ a).setWidth 32 := (BitVec.setWidth_eq _).symm
    _ = 0x20000000#32 ||| a.setWidth 32 := BitVec.setWidth_append_eq_shiftLeft_setWidth_or

theorem sla_setWidth (dev : BitVec 7) (d : Bool) :
    (sla dev d).setWidth 32 = dev.setWidth 32 <<< 1 ||| (BitVec.ofBool d).setWidth 32 :=
  BitVec.setWidth_append_eq_shiftLeft_setWidth_or

theorem ofNat_sla (dev : BitVec 7) (d : Bool) :
    BitVec.ofNat 8 (dev.toNat * 2 + d.toNat) = sla dev d := by
  rw [← sla_toNat, BitVec.ofNat_toNat, BitVec.setWidth_eq]

theorem assemble_start_byte (a : Byte) : assemble (.start a.toNat) = some (encode (.start a)) := by
  refine assemble_eq_some_iff.2 ⟨decide_eq_true (Nat.le_of_lt_succ a.isLt), ?_⟩
  simp [Asm.toInstr]

theorem assemble_startW (dev : BitVec 7) :
    assemble (.startW dev.toNat) = some (encode (.start (sla dev false))) := by
  refine assemble_eq_some_iff.2 ⟨decide_eq_true (Nat.le_of_lt_succ dev.isLt), ?_⟩
  rw [← ofNat_sla]; rfl

theorem assemble_startR (dev : BitVec 7) :
    assemble (.startR dev.toNat) = some (encode (.start (sla dev true))) := by
  refine assemble_eq_some_iff.2 ⟨decide_eq_true (Nat.le_of_lt_succ dev.isLt), ?_⟩
  rw [← ofNat_sla]; rfl

/-- Settles O7: a second name of a form is that form by definition; START_W and START_R by the number of the
address byte. -/
theorem aliasesAssemble : Obligations.AliasesAssemble := by
  refine ⟨fun n => ⟨rfl, rfl⟩, fun ack => rfl, fun dev sub x => ⟨rfl, rfl, rfl⟩, fun dev => ?_⟩
  rw [assemble_startW, assemble_startR, assemble_start_byte, assemble_start_byte]
  refine ⟨rfl, rfl, congrArg some ?_, congrArg some ?_⟩
  · rw [encode_start, sla_setWidth]; exact congrArg _ BitVec.or_zero
  · rw [encode_start, sla_setWidth, ← BitVec.or_assoc]; rfl

end Sys2Proof.Machine
end

section
/-! SUPPORT. The clock configuration by the raw divisor (spec 40_clock_configurator.md R102 to R108), the bus
rate against the target (R109, R110), and what INIT leaves (R101, R111). -/

namespace Sys2Proof.Machine

/-! ## The prescaler search (R105, R106) -/

/-- The search, on its way at the selector `k`, ends at the first one above it with which the divisor fits. -/
theorem prescale_fits {v n k m : Nat} (hk : k < m) (hn : m ≤ k + n) (hfit : v / 4 ^ m ≤ 255)
    (hmin : ∀ j < m, 255 < v / 4 ^ j) :
    prescale n (v / 4 ^ k) k = (BitVec.ofNat 8 (v / 4 ^ m), BitVec.ofNat 2 m, .prescalerAttached) := by
  induction n generalizing k with
  | zero => omega
  | succ n ih =>
    rw [prescale, Nat.div_div_eq_div_mul, ← Nat.pow_succ]
    rcases Nat.lt_or_eq_of_le hk with hlt | rfl
    · rw [if_neg (Nat.not_le.2 (hmin _ hlt)), ih hlt (by omega)]
    · rw [if_pos hfit]

/-- The search clamps when the divisor fits with no selector above `k`. -/
theorem prescale_clamps {v n k : Nat} (h : ∀ j ≤ k + n, 255 < v / 4 ^ j) :
    prescale n (v / 4 ^ k) k = (255, 3, .slowerThanRequested) := by
  induction n generalizing k with
  | zero => rfl
  | succ n ih =>
    rw [prescale, Nat.div_div_eq_div_mul, ← Nat.pow_succ, if_neg (Nat.not_le.2 (h _ (by omega))),
      ih fun j hj => h j (by omega)]

/-! ## The configuration by the raw divisor (R103 to R106) -/

section
variable {f rate n : Nat}

/-- The two floor divisions equal one (R102). -/
theorem rawDivisor_eq (f rate : Nat) :
    rawDivisor f rate = (f / (2 * (rate * 100000)) : Nat) - 8 := by
  rw [rawDivisor, Nat.div_div_eq_div_mul]

theorem clockSetting_underflow (h : rawDivisor f rate < 0) :
    clockSetting f rate = (0, 0, .slowerThanRequested) := if_pos h

/-- A raw divisor that is not negative is fitted directly, or searched for a prescaler. -/
theorem clockSetting_of_raw (h : rawDivisor f rate = n) :
    clockSetting f rate = if n ≤ 255 then (BitVec.ofNat 8 n, 0, .ok) else prescale 3 n 0 := by
  calc clockSetting f rate
      = if (n : Int) < 0 then (0, 0, .slowerThanRequested)
        else if (n : Int) ≤ 255 then (BitVec.ofNat 8 (n : Int).toNat, 0, .ok)
        else prescale 3 (n : Int).toNat 0 := by rw [← h]; rfl
    _ = _ := by
      rw [if_neg (by omega), Int.toNat_natCast]
      exact if_congr (by omega) rfl rfl

/-- The first selector with which the divisor fits is the one INIT takes. -/
theorem clockSetting_fits {k : Nat} (h : rawDivisor f rate = n) (hk : k ≤ 3)
    (hfit : n / 4 ^ k ≤ 255) (hmin : ∀ j < k, 255 < n / 4 ^ j) :
    clockSetting f rate =
      (BitVec.ofNat 8 (n / 4 ^ k), BitVec.ofNat 2 k, if k = 0 then .ok else .prescalerAttached) := by
  rw [clockSetting_of_raw h]
  cases k with
  | zero =>
    rw [Nat.pow_zero, Nat.div_one] at hfit ⊢
    rw [if_pos hfit]; rfl
  | succ k =>
    have hbig : ¬ n ≤ 255 := by simpa using hmin 0 k.succ_pos
    have hsearch := prescale_fits k.succ_pos (n := 3) (by omega) hfit hmin
    rw [Nat.pow_zero, Nat.div_one] at hsearch
    rw [if_neg hbig, hsearch, if_neg k.succ_ne_zero]

/-- `clockSetting_fits` in the integers, where R102 computes. -/
theorem clockSetting_fits_int {k : Nat} (h : 0 ≤ rawDivisor f rate) (hk : k ≤ 3)
    (hfit : rawDivisor f rate / 4 ^ k ≤ 255)
    (hmin : ∀ j < k, 255 < rawDivisor f rate / (4 : Int) ^ j) :
    clockSetting f rate =
      (BitVec.ofInt 8 (rawDivisor f rate / 4 ^ k), BitVec.ofNat 2 k,
        if k = 0 then .ok else .prescalerAttached) := by
  obtain ⟨n, hn⟩ := Int.eq_ofNat_of_zero_le h
  rw [hn] at hfit hmin ⊢
  rw [clockSetting_fits hn hk (mod_cast hfit) (fun j hj => mod_cast hmin j hj),
    ← BitVec.ofInt_natCast]
  push_cast; rfl

theorem clockSetting_clamps (h : 16384 ≤ rawDivisor f rate) :
    clockSetting f rate = (255, 3, .slowerThanRequested) := by
  obtain ⟨n, hn⟩ := Int.eq_ofNat_of_zero_le (show 0 ≤ rawDivisor f rate by omega)
  have hbig (j : Nat) (hj : j ≤ 3) : 255 < n / 4 ^ j := by interval_cases j <;> omega
  have hsearch := prescale_clamps (n := 3) hbig
  rw [Nat.pow_zero, Nat.div_one] at hsearch
  rw [clockSetting_of_raw hn, if_neg (by omega), hsearch]

/-- INIT's configuration is the table of R108: each row's bounds say that its selector is the first with which
the divisor fits. -/
theorem clockSetting_eq_clockTable (f rate : Nat) :
    clockSetting f rate = clockTable (rawDivisor f rate) := by
  unfold clockTable
  split_ifs with h0 h1 h2 h3 h4
  · exact clockSetting_underflow h0
  · simpa using clockSetting_fits_int (k := 0) (by omega) (by omega) (by omega) (by omega)
  · exact clockSetting_fits_int (k := 1) (by omega) (by omega) (by omega)
      fun j hj => by interval_cases j; omega
  · exact clockSetting_fits_int (k := 2) (by omega) (by omega) (by omega)
      fun j hj => by interval_cases j <;> omega
  · exact clockSetting_fits_int (k := 3) (by omega) (by omega) (by omega)
      fun j hj => by interval_cases j <;> omega
  · exact clockSetting_clamps (by omega)

/-- Below the clamp some selector of the four fits, and so there is a first. -/
theorem exists_first_fit (h : n < 16384) :
    ∃ k ≤ 3, n / 4 ^ k ≤ 255 ∧ ∀ j < k, 255 < n / 4 ^ j := by
  have hlast : n / 4 ^ 3 ≤ 255 := by omega
  have hex : ∃ k, n / 4 ^ k ≤ 255 := ⟨3, hlast⟩
  exact ⟨Nat.find hex, Nat.find_min' hex hlast, Nat.find_spec hex,
    fun j hj => Nat.not_le.1 (Nat.find_min hex hj)⟩

/-- With the outcomes Ok and PrescalerAttached, DIV is the raw divisor over the prescaler, rounded down. -/
theorem clockSetting_div_of_fit
    (hc : (clockSetting f rate).2.2 = .ok ∨ (clockSetting f rate).2.2 = .prescalerAttached) :
    ∃ n : Nat, rawDivisor f rate = n ∧
      (clockSetting f rate).1.toNat = n / 4 ^ (clockSetting f rate).2.1.toNat := by
  have hslow : (clockSetting f rate).2.2 ≠ .slowerThanRequested := by rcases hc with h | h <;> simp [h]
  have h0 : 0 ≤ rawDivisor f rate := by
    by_contra h
    exact hslow (by rw [clockSetting_underflow (Int.not_le.1 h)])
  have htop : rawDivisor f rate < 16384 := by
    by_contra h
    exact hslow (by rw [clockSetting_clamps (Int.not_lt.1 h)])
  obtain ⟨n, hn⟩ := Int.eq_ofNat_of_zero_le h0
  obtain ⟨k, hk, hfit, hmin⟩ := exists_first_fit (n := n) (by omega)
  refine ⟨n, hn, ?_⟩
  have hps : (BitVec.ofNat 2 k).toNat = k := Nat.mod_eq_of_lt (by omega)
  simp only [clockSetting_fits hn hk hfit hmin, hps]
  exact Nat.mod_eq_of_lt (by omega)

end

/-- Settles O25: the table and the search by the first fitting selector, the sign of `raw` by its quotient. -/
theorem clockThresholds : Obligations.ClockThresholds := by
  intro f rate _ raw
  have hraw : raw = _ := rawDivisor_eq f rate
  exact ⟨clockSetting_eq_clockTable f rate, by omega, fun h k => clockSetting_fits_int h, by omega,
    clockSetting_clamps⟩

/-! ## The bus rate against the target (R109, R110) -/

section
variable (f T d p : Nat)

theorem busCycles_pos : (0 : ℚ) < 16 + 2 * d * 4 ^ p := by positivity

/-- The clock cycles of one bus bit, times the target, as a natural number. -/
theorem target_mul_busCycles :
    (T : ℚ) * (16 + 2 * d * 4 ^ p) = ((d * 4 ^ p + 8) * (2 * T) : Nat) := by
  push_cast; ring

theorem target_le_busRate_iff :
    (T : ℚ) ≤ f / (16 + 2 * d * 4 ^ p) ↔ (d * 4 ^ p + 8) * (2 * T) ≤ f := by
  rw [le_div_iff₀ (busCycles_pos d p), target_mul_busCycles, Nat.cast_le]

theorem target_lt_busRate_iff :
    (T : ℚ) < f / (16 + 2 * d * 4 ^ p) ↔ (d * 4 ^ p + 8) * (2 * T) < f := by
  rw [lt_div_iff₀ (busCycles_pos d p), target_mul_busCycles, Nat.cast_lt]

theorem busRate_eq_target_iff :
    (f : ℚ) / (16 + 2 * d * 4 ^ p) = T ↔ f = (d * 4 ^ p + 8) * (2 * T) := by
  rw [div_eq_iff (busCycles_pos d p).ne', target_mul_busCycles, Nat.cast_inj]

end

/-- A divisor rounded down gives the target exactly when neither of its divisions rounds (R110(a)). -/
theorem exact_quotients_iff {f c n m : Nat} (hc : 0 < c) (hq : f / c = n + 8) :
    f = (n / m * m + 8) * c ↔ c ∣ f ∧ m ∣ n := by
  constructor
  · intro h
    have hn : n / m * m = n := by
      have := Nat.div_eq_of_eq_mul_left hc h
      omega
    exact ⟨Dvd.intro_left _ h.symm, Dvd.intro_left _ hn⟩
  · rintro ⟨hcf, hmn⟩
    rw [Nat.div_mul_cancel hmn, ← hq, Nat.div_mul_cancel hcf]

/-- Settles O26: each comparison of the rate with the target is one of `f` with `(DIV · 4^PS + 8) · 2T`, where
`raw + 8` is `f` over `2T` rounded down. -/
theorem clockRateAgainstTarget : Obligations.ClockRateAgainstTarget := by
  intro f rate _ hrate raw target d p c bus
  have hraw : raw = _ := rawDivisor_eq f rate
  have hT : 0 < 2 * (rate * 100000) := by omega
  have htarget : target = (rate * 100000 : Nat) := by push_cast; rfl
  rw [htarget]
  refine ⟨fun hc => ?_, fun h => ?_, fun h => ?_⟩
  · obtain ⟨n, hn, hd⟩ : ∃ n : Nat, raw = n ∧ d.toNat = n / 4 ^ p.toNat :=
      clockSetting_div_of_fit hc
    have hq : f / (2 * (rate * 100000)) = n + 8 := by omega
    have hle : n / 4 ^ p.toNat * 4 ^ p.toNat ≤ n := Nat.div_mul_le_self _ _
    refine ⟨(target_le_busRate_iff ..).2 ?_, (busRate_eq_target_iff ..).trans ?_⟩
    · rw [hd]
      exact (Nat.le_div_iff_mul_le hT).1 (by omega)
    · rw [hd, hn, exact_quotients_iff hT hq]
      exact and_congr_right' (by norm_cast)
  · obtain ⟨hd, hp, hc⟩ : d = 0#8 ∧ p = 0#2 ∧ c = .slowerThanRequested := by
      simp [d, p, c, clockSetting_underflow h]
    have hq : f < 8 * (2 * (rate * 100000)) := (Nat.div_lt_iff_lt_mul hT).1 (by omega)
    refine ⟨hc, by simp [bus, hd, hp], not_le.1 (mt (target_le_busRate_iff ..).1 ?_)⟩
    rw [hd, hp]
    change ¬ (0 * 4 ^ 0 + 8) * _ ≤ f
    omega
  · obtain ⟨hd, hp, hc⟩ : d = 255#8 ∧ p = 3#2 ∧ c = .slowerThanRequested := by
      simp [d, p, c, clockSetting_clamps h]
    have hq : 16392 * (2 * (rate * 100000)) ≤ f := (Nat.le_div_iff_mul_le hT).1 (by omega)
    refine ⟨hc, by norm_num [bus, hd, hp], (target_lt_busRate_iff ..).2 ?_⟩
    rw [hd, hp]
    change (255 * 4 ^ 3 + 8) * _ < f
    omega

/-! ## INIT (R101, R111) -/

/-- INIT's body runs to its end in four points. -/
theorem goes_init {s : State} {rate : BitVec 8} {d : BitVec 8} {p : BitVec 2} {c : StatusCode}
    (hb : s.busy = true) (ht : s.run.todo = [.config rate, .result, .configured])
    (hc : clockSetting s.platform.sysClkHz rate.toNat = (d, p, c)) :
    Goes 4 s { s with
      div := d, ps := p, result := c, configured := true, busy := false
      unset := { s.unset with div := false, ps := false, result := false }
      run := { s.run with st := c, todo := [] } } := by
  have hconfig := Goes.point hb ht
  rw [State.taskStep, State.configStep, hc] at hconfig
  exact ((hconfig.trans (goes_result hb rfl)).trans (Goes.point hb rfl)).trans (Goes.finish hb rfl)

/-- INIT on a ready block (60_exceptions.md R201): accepted, latched and run. -/
theorem exec_init_ready {s : State} {rate : BitVec 8} (h : s.Ready) (hr : rate ≠ 0) :
    exec (.init rate) s = .next (s.launch (.init rate) (commandBody (.init rate))) := by
  refine congrArg Host.Outcome.next ((s.screen_ready _ h).trans ?_)
  exact if_neg hr

/-- Settles O27: INIT is accepted whatever HELD and PHASE are, and its four points fit in the pace. -/
theorem initConfigures : Obligations.InitConfigures := by
  intro s rate hs hr hp
  obtain ⟨⟨d, p, c⟩, hc⟩ : ∃ x, clockSetting s.platform.sysClkHz rate.toNat = x := ⟨_, rfl⟩
  have hrun := (goes_init (s := s.latch (.init rate) (commandBody (.init rate))) rfl rfl hc).ended
    rfl hp
  refine ⟨_, exec_init_ready hs hr, ?_⟩
  rw [State.launch, hrun, ← clockSetting_eq_clockTable]
  refine ⟨hc.symm, ?_⟩
  rw [hs.2]
  rfl

end Sys2Proof.Machine
end

section
/-! SUPPORT. STOP as a command (spec 41_phase_primitives.md R130 to R132): what a turn of its wait can come to,
what a running STOP has changed and where it stands, and a STOP on a free bus. -/

namespace Sys2Proof.Machine

/-! ## A poll of a `StopCond` (R121, R123) -/

/-- What a poll of a `StopCond` may move: BusEnv, STO_PEND and NPOLL. -/
def State.StopPolled (s u : State) : Prop :=
  ∃ env draws pend n, u = { s with
    env := env, draws := draws, stoPend := pend, run := { s.run with npoll := n } }

theorem State.answered_stopPolled (s : State) : s.StopPolled s.answered := by
  unfold State.answered
  split <;> exact ⟨_, _, _, _, rfl⟩

theorem State.stopMove_stopPolled (s : State) : s.StopPolled s.stopMove := by
  obtain ⟨env, draws, pend, n, h⟩ := s.answered_stopPolled
  rcases s.stopMove_cases with e | e <;> rw [e, h] <;> exact ⟨_, _, _, _, rfl⟩

theorem State.StopPolled.countPoll {s u : State} (h : s.StopPolled u) : s.StopPolled u.countPoll := by
  obtain ⟨env, draws, pend, n, rfl⟩ := h
  exact ⟨_, _, _, _, rfl⟩

theorem State.pollStop_stopPolled (s : State) : s.StopPolled s.pollStop.2 := by
  have h := s.stopMove_stopPolled
  rcases s.pollStop_cases with ⟨e, -⟩ | e | ⟨e, -⟩ <;> rw [e]
  · exact h
  · exact h.countPoll
  · exact h.countPoll

/-- A stop expires only while STO_PEND is 1 and under a poll limit (R121, R132). -/
theorem State.pollStop_expired {s u : State} (h : s.pollStop = (.expired, u)) :
    u.stoPend = true ∧ u.platform.pollLimit ≠ none := by
  unfold State.pollStop at h
  split at h
  · rename_i hpend
    rcases s.stopMove.notYet_cases with ⟨e, -⟩ | ⟨e, hlimit⟩
    · cases e.symm.trans h
    · cases e.symm.trans h
      exact ⟨hpend, fun hnone => hlimit fun l hl => nomatch hnone.symm.trans hl⟩
  · cases h

/-- Everything a turn of a stop's wait can come to: it waits on, it gives up with the bus still held, or it
releases the bus. -/
theorem State.stopPollStep_cases (ts : List Task) (s : State) :
    ∃ u, s.StopPolled u ∧
      (s.stopPollStep ts = u ∨
        (s.stopPollStep ts = u.setTodo ts ∧ u.stoPend = true ∧ u.platform.pollLimit ≠ none) ∨
        s.stopPollStep ts = u.releaseBus.setTodo ts) := by
  obtain ⟨⟨p, u⟩, h⟩ : ∃ r, s.pollStop = r := ⟨_, rfl⟩
  have hu := s.pollStop_stopPolled
  rw [h] at hu
  rw [State.stopPollStep, h]
  cases p with
  | pending => exact ⟨u, hu, .inl rfl⟩
  | expired => exact ⟨u, hu, .inr (.inl ⟨rfl, State.pollStop_expired h⟩)⟩
  | done => exact ⟨u, hu, .inr (.inr rfl)⟩

/-! ## A running STOP (R130) -/

/-- What a STOP latched in `s` may have changed in `t`. -/
def State.StopChanged (s t : State) : Prop :=
  t = { s with
    held := t.held, phase := t.phase, stoPend := t.stoPend, busy := t.busy
    env := t.env, draws := t.draws, trace := t.trace
    run := { s.run with npoll := t.run.npoll, todo := t.run.todo } }

theorem State.StopChanged.trans {s t u : State} (h : s.StopChanged t) (k : t.StopChanged u) :
    s.StopChanged u := by
  refine Eq.trans k ?_
  rw [h]

section
variable {s t : State} (h : s.StopChanged t)
include h

theorem State.StopChanged.configured : t.configured = s.configured := by rw [h]
theorem State.StopChanged.fault : t.fault = s.fault := by rw [h]
theorem State.StopChanged.platform : t.platform = s.platform := by rw [h]
theorem State.StopChanged.pace : t.pace = s.pace := by rw [h]

end

theorem State.StopPolled.stopChanged {s u : State} (h : s.StopPolled u) : s.StopChanged u := by
  obtain ⟨env, draws, pend, n, rfl⟩ := h
  rfl

/-- A STOP latched in `s` has come to `t`: to its call, to its wait, or to its end, where the bus is free unless
the wait expired. -/
def State.StopReaches (s t : State) : Prop :=
  s.StopChanged t ∧
    (t.run.todo = [.stop] ∧ t.busy = true ∨
      t.run.todo = [.stopPoll] ∧ t.busy = true ∨
      t.run.todo = [] ∧ (t.held = false ∨ t.stoPend = true ∧ t.platform.pollLimit ≠ none))

theorem State.StopReaches.micro {s t : State} (h : s.StopReaches t) : s.StopReaches t.micro := by
  obtain ⟨hframe, ⟨htodo, hbusy⟩ | ⟨htodo, hbusy⟩ | ⟨htodo, hend⟩⟩ := h
  · rw [State.micro_cons htodo, State.taskStep, State.stopStep]
    split
    · exact ⟨hframe.trans rfl, .inr (.inl ⟨rfl, hbusy⟩)⟩
    · rename_i hfree
      exact ⟨hframe.trans rfl, .inr (.inr ⟨rfl, .inl (by simpa using hfree)⟩)⟩
  · rw [State.micro_cons htodo, State.taskStep]
    obtain ⟨u, hu, e | ⟨e, hexpired⟩ | e⟩ := t.stopPollStep_cases [] <;> rw [e]
    · refine ⟨hframe.trans hu.stopChanged, .inr (.inl ?_)⟩
      obtain ⟨env, draws, pend, n, rfl⟩ := hu
      exact ⟨htodo, hbusy⟩
    · exact ⟨(hframe.trans hu.stopChanged).trans rfl, .inr (.inr ⟨rfl, .inr hexpired⟩)⟩
    · exact ⟨(hframe.trans hu.stopChanged).trans rfl, .inr (.inr ⟨rfl, .inl rfl⟩)⟩
  · rw [State.micro_nil htodo]
    exact ⟨hframe.trans rfl, .inr (.inr ⟨htodo, hend⟩)⟩

/-- A STOP that has ended has freed the bus, unless its wait expired (R130, R132). -/
theorem State.StopReaches.free_of_ended {s t : State} (h : s.StopReaches t) (hended : t.busy = false)
    (hwait : t.platform.pollLimit = none ∨ t.stoPend = false) :
    t.run.todo = [] ∧ t.held = false := by
  obtain ⟨-, ⟨-, hbusy⟩ | ⟨-, hbusy⟩ | ⟨htodo, hfree | ⟨hpend, hlimit⟩⟩⟩ := h
  · cases hbusy.symm.trans hended
  · cases hbusy.symm.trans hended
  · exact ⟨htodo, hfree⟩
  · rcases hwait with hnone | hclear
    · exact absurd hnone hlimit
    · cases hpend.symm.trans hclear

theorem State.runBlock_stopReaches (n : Nat) (s : State) :
    (s.latch .stop [.stop]).StopReaches ((s.latch .stop [.stop]).runBlock n) :=
  State.runBlock_keeps (fun _ _ h => h.micro) n _ ⟨rfl, .inl ⟨rfl, rfl⟩⟩

/-- STOP takes at least two points, its call and its end, so it does not end within a smaller pace. -/
theorem two_le_of_stop_ended {s : State} {n : Nat}
    (h : ((s.latch .stop [.stop]).runBlock n).busy = false) : 2 ≤ n := by
  match n with
  | 0 => cases h
  | 1 =>
    change (s.latch .stop [.stop]).micro.busy = false at h
    rw [State.micro_cons rfl, State.taskStep, State.stopStep] at h
    split at h <;> cases h
  | n + 2 => omega

/-! ## STOP issued -/

theorem State.whenConfigured_configured {s : State} (k : State → State) (h : s.configured = true) :
    s.whenConfigured k = k s := if_pos h

/-- STOP on an accepting block (60_exceptions.md R201): accepted, latched and run. -/
theorem exec_stop_accepting {s : State} (h : s.Accepting) :
    exec .stop s = .next (s.launch .stop [.stop]) := by
  refine congrArg Host.Outcome.next ((s.screen_ready _ h.1).trans ?_)
  exact s.whenConfigured_configured _ h.2

/-- STOP on a free bus is two points, and leaves the latched operands of a STOP (R130). -/
theorem exec_stop_free {s : State} (h : s.Accepting) (hheld : s.held = false) (hpace : 2 ≤ s.pace) :
    exec .stop s = .next { s.latch .stop [] with busy := false } := by
  have hrun := (goes_stop_free (s := s.latch .stop [.stop]) rfl rfl hheld).trans (Goes.finish rfl rfl)
  rw [exec_stop_accepting h, State.launch, hrun.ended rfl hpace]
  rfl

/-- Latching a STOP again where one has ended changes nothing: the operands are the ones the first left. -/
theorem State.StopChanged.latch_again {s t : State} {ts : List Task}
    (h : (s.latch .stop ts).StopChanged t) (hbusy : t.busy = false) (htodo : t.run.todo = []) :
    { t.latch .stop [] with busy := false } = t := by
  refine Eq.trans ?_ (Eq.symm h)
  rw [hbusy, htodo]
  conv_lhs => rw [h]
  rfl

/-- Settles O30: a STOP that ends has freed the bus unless its wait expired; the second one then takes two
points and latches the operands that the first one left. -/
theorem stopTwiceIsStopOnce : Obligations.StopTwiceIsStopOnce := by
  intro s t hs hstop hended hwait
  have hrun : (s.latch .stop [.stop]).runBlock s.pace = t :=
    Host.Outcome.next.inj ((exec_stop_accepting hs).symm.trans hstop)
  have hreach := s.runBlock_stopReaches s.pace
  have hpace : 2 ≤ s.pace := two_le_of_stop_ended (hrun ▸ hended)
  rw [hrun] at hreach
  have hchanged := hreach.1
  obtain ⟨htodo, hfree⟩ := hreach.free_of_ended hended (hchanged.platform ▸ hwait)
  have haccepting : t.Accepting :=
    ⟨⟨hchanged.fault.trans hs.1.1, hended⟩, hchanged.configured.trans hs.2⟩
  refine ⟨hfree, ?_⟩
  rw [exec_stop_free haccepting hfree (hchanged.pace ▸ hpace), hchanged.latch_again hended htodo]

end Sys2Proof.Machine
end

section
/-! SUPPORT. A buffered command on its way, whatever BusEnv answers (spec 42_buffered_operations.md R181, R182):
what every point between its two stops keeps, and how it comes to its end. -/

namespace Sys2Proof.Machine

/-! ## The points of a start, a write and a read -/

/-- The point belongs to a start, a write or a read. -/
def Task.transfers : Task → Bool
  | .start _ | .startPoll _ | .addrPoll _ | .addrDone _ | .write _ | .writePoll _ | .writeDone | .read _
  | .readPoll _ | .readDone => true
  | .config _ | .configured | .stop | .stopPoll | .readEnd | .sendLoop | .sendNext | .recvLoop | .store
  | .result => false

/-- The statuses a buffered command can come to (R182). -/
def Permitted (p : Platform) (c : StatusCode) : Prop :=
  c = .ok ∨ c = .badStart ∨ c = .slaveAddressNotAcknowledging ∨ c = .slaveDataNotAcknowledging ∨
    (c = .timeout ∧ p.pollLimit ≠ none)

/-- What every point between the two stops of a buffered command keeps. -/
structure State.Advances (s u : State) : Prop where
  fault : u.fault = s.fault
  busy : u.busy = s.busy
  platform : u.platform = s.platform
  held : s.held = true → u.held = true
  trace : s.trace <+: u.trace
  status : Permitted s.platform s.run.st → Permitted u.platform u.run.st

theorem State.Advances.trans {s u v : State} (h : s.Advances u) (k : u.Advances v) : s.Advances v where
  fault := k.fault.trans h.fault
  busy := k.busy.trans h.busy
  platform := k.platform.trans h.platform
  held hheld := k.held (h.held hheld)
  trace := h.trace.trans k.trace
  status hst := k.status (h.status hst)

/-- A change of nothing but the run, PHASE and memory, with a status a buffered command can come to. -/
theorem State.Advances.of_status {s : State} {r : Run} {p : Phase} {m : Memory}
    (h : r.st = s.run.st ∨ Permitted s.platform r.st) :
    s.Advances { s with run := r, phase := p, mem := m } where
  fault := rfl
  busy := rfl
  platform := rfl
  held := id
  trace := List.prefix_rfl
  status hst := h.elim (fun e => e ▸ hst) id

theorem State.issue_advances (s : State) (op : BusOp) (ts : List Task) :
    s.Advances ((s.issue op).setTodo ts) where
  fault := rfl
  busy := rfl
  platform := rfl
  held := id
  trace := List.prefix_append _ _
  status := id

theorem State.claimBus_advances (s : State) : s.Advances s.claimBus where
  fault := rfl
  busy := rfl
  platform := rfl
  held _ := rfl
  trace := List.prefix_rfl
  status := id

/-- Everything a poll can come to: it waits on, it gives up under a poll limit, or it is answered. -/
theorem State.poll_advances (s : State) : ∃ u, s.Advances u ∧ u.run.todo = s.run.todo ∧
    (s.poll = (.pending, u) ∨ (s.poll = (.expired, u) ∧ s.platform.pollLimit ≠ none) ∨
      ∃ d, s.poll = (.done d, u)) := by
  obtain ⟨st, d, -, h⟩ | ⟨-, h, -⟩ | ⟨-, h, hlimit⟩ := s.poll_cases
  · exact ⟨_, by constructor <;> simp, by simp, .inr (.inr ⟨d, h⟩)⟩
  · exact ⟨_, by constructor <;> simp, by simp, .inl h⟩
  · have hlimit : s.platform.pollLimit ≠ none := fun e => hlimit fun l hl => nomatch e.symm.trans hl
    exact ⟨_, by constructor <;> simp, by simp, .inr (.inl ⟨h, hlimit⟩)⟩

/-- `u` is `s` after a point between the two stops, and at most points of the kind `C` now stand before `ts`, what
was to follow it. -/
def State.Leads (C : Task → Bool) (ts : List Task) (s u : State) : Prop :=
  s.Advances u ∧ ∃ front, (∀ f ∈ front, C f = true) ∧ u.run.todo = front ++ ts

section
variable {s u : State} {t : Task} {ts : List Task}

theorem State.Advances.leads_setTodo (h : s.Advances u) (front : List Task)
    (hf : ∀ f ∈ front, f.transfers = true) : s.Leads Task.transfers ts (u.setTodo (front ++ ts)) :=
  ⟨h.trans (.of_status (.inl rfl)), front, hf, rfl⟩

theorem State.Advances.leads_fail (h : s.Advances u) {c : StatusCode} (hc : Permitted u.platform c) :
    s.Leads Task.transfers ts (u.fail c ts) :=
  ⟨h.trans (.of_status (.inr hc)), [], by simp, rfl⟩

/-- A point of a start, a write or a read leads on, whatever BusEnv answers. -/
theorem State.taskStep_leads (ht : t.transfers = true) (htodo : s.run.todo = t :: ts) :
    s.Leads Task.transfers ts (s.taskStep t ts) := by
  have hwait : ∀ {u}, s.Advances u → u.run.todo = s.run.todo → s.Leads Task.transfers ts u := fun h e =>
    ⟨h, [t], by simpa using ht, e.trans htodo⟩
  have hexpire : ∀ {u}, s.Advances u → s.platform.pollLimit ≠ none →
      s.Leads Task.transfers ts (u.fail .timeout ts) := fun h hlimit =>
    h.leads_fail (by rw [h.platform]; simp [Permitted, hlimit])
  have hskip : s.Leads Task.transfers ts (s.setTodo ts) := ⟨.of_status (.inl rfl), [], by simp, rfl⟩
  obtain ⟨u, hu, hutodo, hpoll⟩ := s.poll_advances
  cases t <;> simp only [Task.transfers, Bool.false_eq_true] at ht <;> simp only [State.taskStep]
  case start a =>
    unfold State.startStep State.whenOk
    split
    · exact ⟨s.claimBus_advances.trans (State.issue_advances _ _ _), [.startPoll a],
        by simp [Task.transfers], rfl⟩
    · exact hskip
  case startPoll a =>
    unfold State.startPollStep
    obtain hp | ⟨hp, hlimit⟩ | ⟨d, hp⟩ := hpoll <;> rw [hp] <;> dsimp only
    · exact hwait hu hutodo
    · exact hexpire hu hlimit
    · split
      · exact ⟨hu.trans (State.issue_advances _ _ _), [.addrPoll a], by simp [Task.transfers], rfl⟩
      · exact hu.leads_fail (by simp [Permitted])
  case addrPoll a =>
    unfold State.addrPollStep
    obtain hp | ⟨hp, hlimit⟩ | ⟨d, hp⟩ := hpoll <;> rw [hp] <;> dsimp only
    · exact hwait hu hutodo
    · exact hexpire hu hlimit
    · exact hu.leads_setTodo [.addrDone a] (by simp [Task.transfers])
  case addrDone =>
    unfold State.addrDoneStep
    split
    · exact ⟨.of_status (.inl rfl), [], by simp, rfl⟩
    · exact ⟨.of_status (.inr (by simp [Permitted])), [], by simp, rfl⟩
  case write b =>
    unfold State.writeStep State.whenOk
    split
    · exact ⟨State.issue_advances _ _ _, [.writePoll b], by simp [Task.transfers], rfl⟩
    · exact hskip
  case writePoll =>
    unfold State.writePollStep
    obtain hp | ⟨hp, hlimit⟩ | ⟨d, hp⟩ := hpoll <;> rw [hp] <;> dsimp only
    · exact hwait hu hutodo
    · exact hexpire hu hlimit
    · exact hu.leads_setTodo [.writeDone] (by simp [Task.transfers])
  case writeDone =>
    unfold State.writeDoneStep
    split
    · exact ⟨.of_status (.inl rfl), [], by simp, rfl⟩
    · exact ⟨.of_status (.inr (by simp [Permitted])), [], by simp, rfl⟩
  case read k =>
    unfold State.readStep State.whenOk
    split
    · exact ⟨State.issue_advances _ _ _, [.readPoll k], by simp [Task.transfers], rfl⟩
    · exact hskip
  case readPoll =>
    unfold State.readPollStep
    obtain hp | ⟨hp, hlimit⟩ | ⟨d, hp⟩ := hpoll <;> rw [hp] <;> dsimp only
    · exact hwait hu hutodo
    · exact hexpire hu hlimit
    · exact ⟨hu.trans (.of_status (.inl rfl)), [.readDone], by simp [Task.transfers], rfl⟩
  case readDone => exact ⟨.of_status (.inl rfl), [], by simp, rfl⟩

/-! ## The byte loops -/

/-- The point belongs to a byte loop: it reads LBUF, IDX, `len` or memory. -/
def Task.loops : Task → Bool
  | .sendLoop | .sendNext | .recvLoop | .store => true
  | .config _ | .configured | .start _ | .startPoll _ | .addrPoll _ | .addrDone _ | .stop | .stopPoll
  | .write _ | .writePoll _ | .writeDone | .read _ | .readPoll _ | .readDone | .readEnd | .result => false

/-- The point stands between the two stops of a buffered command. -/
def Task.betweenStops (t : Task) : Bool := t.transfers || t.loops

theorem State.raise_fault (c : Cause) (s : State) : (s.raise c).fault = true := by
  unfold State.raise; dsimp only; split <;> split <;> simp_all

theorem State.Leads.mono {C D : Task → Bool} (hCD : ∀ t, C t = true → D t = true) (h : s.Leads C ts u) :
    s.Leads D ts u :=
  let ⟨hadv, front, hfront, htodo⟩ := h
  ⟨hadv, front, fun f hf => hCD f (hfront f hf), htodo⟩

/-- A point of a byte loop halts the command with F_BUF_ACCESS, or leads on. -/
theorem State.taskStep_loops (ht : t.loops = true) :
    s.taskStep t ts = s.raise .bufAccess ∨ s.Leads Task.betweenStops ts (s.taskStep t ts) := by
  have hend : s.Leads Task.betweenStops ts (s.setTodo ts) := ⟨.of_status (.inl rfl), [], by simp, rfl⟩
  cases t <;> simp only [Task.loops, Bool.false_eq_true] at ht <;> simp only [State.taskStep]
  case sendLoop =>
    unfold State.sendLoopStep
    split
    · split
      · rename_i b u hu
        obtain ⟨-, hr⟩ := State.memRead_cases hu
        have hfront : ∀ f ∈ [Task.write b, .sendNext], f.betweenStops = true := by
          simp [Task.betweenStops, Task.transfers, Task.loops]
        obtain e | e := (s.racedByte_cases s.run.addr).2 <;> rw [← hr] at e <;> dsimp only at e <;> rw [e]
        · exact .inr ⟨.of_status (.inl rfl), _, hfront, rfl⟩
        · exact .inr ⟨by constructor <;> simp, _, hfront, rfl⟩
      · exact .inl rfl
    · exact .inr hend
  case sendNext => exact .inr ⟨.of_status (.inl rfl), [.sendLoop], by decide, rfl⟩
  case recvLoop =>
    unfold State.recvLoopStep
    split
    · exact .inr ⟨.of_status (.inl rfl), [.read s.run.ackNext, .store, .recvLoop],
        by simp [Task.betweenStops, Task.transfers, Task.loops], rfl⟩
    · exact .inr hend
  case store =>
    unfold State.storeStep State.whenOk
    split
    · split
      · rename_i u hu
        obtain ⟨-, -, rfl⟩ := State.memWrite_cases hu
        dsimp only
        split
        · exact .inr ⟨.of_status (.inr (by simp [Permitted])), [], by simp, rfl⟩
        · exact .inr ⟨.of_status (.inl rfl), [], by simp, rfl⟩
      · exact .inl rfl
    · exact .inr hend

/-- A point between the two stops halts the command with F_BUF_ACCESS, or leads on. -/
theorem State.taskStep_betweenStops (ht : t.betweenStops = true) (htodo : s.run.todo = t :: ts) :
    s.taskStep t ts = s.raise .bufAccess ∨ s.Leads Task.betweenStops ts (s.taskStep t ts) := by
  obtain ht | ht := (Bool.or_eq_true _ _).mp ht
  · exact .inr ((State.taskStep_leads ht htodo).mono fun f hf => by rw [Task.betweenStops, hf, Bool.true_or])
  · exact State.taskStep_loops ht

end

/-! ## Where a buffered command stands -/

/-- The cleanup stop has been issued after the operations of `trace`, and has released the bus or expired. -/
structure State.Released (trace : List BusOp) (u : State) : Prop where
  issued : ∃ ops, u.trace = trace ++ ops ++ [.stopCond]
  free : u.stoPend = false → u.held = false ∧ u.phase = .stopped
  expired : u.stoPend = true → u.held = true ∧ u.platform.pollLimit ≠ none

/-- Where a buffered command stands that was accepted with the record `trace`: before its first start, between
that and its cleanup stop, in the wait of that stop, before `RESULT <- s`, or at its end. -/
inductive State.Stage (trace : List BusOp) (u : State) : Prop
  | opening {first mid : List Task} {a : Byte} (hbusy : u.busy = true) (htrace : trace <+: u.trace)
      (hst : u.run.st = .ok) (hfirst : first = [.stop] ∨ first = [.stopPoll] ∨ first = [])
      (hmid : ∀ t ∈ mid, t.betweenStops = true) (htodo : u.run.todo = first ++ .start a :: (mid ++ closeBus))
  | between {mid : List Task} (hbusy : u.busy = true) (htrace : trace <+: u.trace) (hheld : u.held = true)
      (hmid : ∀ t ∈ mid, t.betweenStops = true) (htodo : u.run.todo = mid ++ closeBus)
  | releasing (hbusy : u.busy = true) (htrace : ∃ ops, u.trace = trace ++ ops ++ [.stopCond])
      (hheld : u.held = true) (htodo : u.run.todo = [.stopPoll, .result])
  | released (hbusy : u.busy = true) (hrel : u.Released trace) (htodo : u.run.todo = [.result])
  | ended (hrel : u.Released trace) (hresult : u.result = u.run.st) (htodo : u.run.todo = [])

/-- A buffered command that was accepted with the record `trace` has come to `u`: it halted with a fault, or it
stands somewhere on its way with a status it can end with. -/
def State.Transacts (trace : List BusOp) (u : State) : Prop :=
  (u.fault = true ∧ u.busy = false) ∨ (Permitted u.platform u.run.st ∧ u.Stage trace)

theorem State.pollStop_done_clears {s u : State} {d : Byte} (h : s.pollStop = (.done d, u)) :
    u.stoPend = false := by
  obtain ⟨e, hclear⟩ | e | ⟨e, -⟩ := s.pollStop_cases <;> cases e.symm.trans h
  exact hclear

/-- A turn of a stop's wait, with STO_PEND as it leaves it: the stop waits on, it gives up with STO_PEND 1 under a
poll limit, or it releases the bus with STO_PEND 0. -/
theorem State.stopPollStep_pend (ts : List Task) (s : State) :
    ∃ u, s.StopPolled u ∧
      (s.stopPollStep ts = u ∨
        (s.stopPollStep ts = u.setTodo ts ∧ u.stoPend = true ∧ u.platform.pollLimit ≠ none) ∨
        (s.stopPollStep ts = u.releaseBus.setTodo ts ∧ u.stoPend = false)) := by
  obtain ⟨⟨p, u⟩, h⟩ : ∃ r, s.pollStop = r := ⟨_, rfl⟩
  have hu := s.pollStop_stopPolled
  rw [h] at hu
  refine ⟨u, hu, ?_⟩
  rw [State.stopPollStep, h]
  cases p with
  | pending => exact .inl rfl
  | expired => exact .inr (.inl ⟨rfl, State.pollStop_expired h⟩)
  | done => exact .inr (.inr ⟨rfl, State.pollStop_done_clears h⟩)

section
variable {trace : List BusOp} {u : State} {mid : List Task} {a : Byte}

/-- The points before the first start: the defensive stop goes on, or it is over and the start comes next. -/
theorem State.Transacts.micro_opening {first : List Task} (hp : Permitted u.platform u.run.st)
    (hbusy : u.busy = true) (htrace : trace <+: u.trace) (hst : u.run.st = .ok)
    (hfirst : first = [.stop] ∨ first = [.stopPoll] ∨ first = [])
    (hmid : ∀ t ∈ mid, t.betweenStops = true) (htodo : u.run.todo = first ++ .start a :: (mid ++ closeBus)) :
    u.micro.Transacts trace := by
  obtain rfl | rfl | rfl := hfirst
  · rw [State.micro_cons htodo, State.taskStep, State.stopStep]
    split
    · exact .inr ⟨hp, .opening hbusy (htrace.trans (List.prefix_append _ _)) hst (.inr (.inl rfl)) hmid rfl⟩
    · exact .inr ⟨hp, .opening hbusy htrace hst (.inr (.inr rfl)) hmid rfl⟩
  · rw [State.micro_cons (ts := .start a :: (mid ++ closeBus)) htodo, State.taskStep]
    obtain ⟨_, ⟨_, _, _, _, rfl⟩, e | ⟨e, -⟩ | ⟨e, -⟩⟩ :=
      u.stopPollStep_pend (.start a :: (mid ++ closeBus)) <;> rw [e]
    · exact .inr ⟨hp, .opening hbusy htrace hst (.inr (.inl rfl)) hmid htodo⟩
    · exact .inr ⟨hp, .opening hbusy htrace hst (.inr (.inr rfl)) hmid rfl⟩
    · exact .inr ⟨hp, .opening hbusy htrace hst (.inr (.inr rfl)) hmid rfl⟩
  · rw [State.micro_cons htodo, State.taskStep, State.startStep, State.whenOk, if_pos hst]
    refine .inr ⟨hp, .between (mid := .startPoll a :: mid) hbusy (htrace.trans (List.prefix_append _ _)) rfl ?_
      rfl⟩
    simpa [Task.betweenStops, Task.transfers] using hmid

/-- The points between the first start and the cleanup stop, up to the call of that stop. -/
theorem State.Transacts.micro_between (hp : Permitted u.platform u.run.st) (hbusy : u.busy = true)
    (htrace : trace <+: u.trace) (hheld : u.held = true) (hmid : ∀ t ∈ mid, t.betweenStops = true)
    (htodo : u.run.todo = mid ++ closeBus) : u.micro.Transacts trace := by
  cases mid with
  | nil =>
    obtain ⟨ops, htrace⟩ := htrace
    rw [State.micro_cons htodo, State.taskStep, State.stopStep, if_pos hheld]
    exact .inr ⟨hp, .releasing hbusy ⟨ops, by rw [htrace]; rfl⟩ hheld rfl⟩
  | cons t mid =>
    obtain ⟨ht, hmid⟩ := List.forall_mem_cons.1 hmid
    rw [List.cons_append] at htodo
    rw [State.micro_cons htodo]
    obtain e | ⟨hadv, front, hfront, htodo'⟩ := State.taskStep_betweenStops ht htodo
    · rw [e]
      exact .inl ⟨u.raise_fault _, u.raise_bufAccess_busy⟩
    · refine .inr ⟨hadv.status hp, .between (mid := front ++ mid) (hadv.busy.trans hbusy)
        (htrace.trans hadv.trace) (hadv.held hheld) ?_ (by rw [htodo', List.append_assoc])⟩
      exact List.forall_mem_append.2 ⟨hfront, hmid⟩

/-- The wait of the cleanup stop. -/
theorem State.Transacts.micro_releasing (hp : Permitted u.platform u.run.st) (hbusy : u.busy = true)
    (htrace : ∃ ops, u.trace = trace ++ ops ++ [.stopCond]) (hheld : u.held = true)
    (htodo : u.run.todo = [.stopPoll, .result]) : u.micro.Transacts trace := by
  rw [State.micro_cons htodo, State.taskStep]
  obtain ⟨_, ⟨_, _, _, _, rfl⟩, e | ⟨e, hpend, hlimit⟩ | ⟨e, hpend⟩⟩ :=
    u.stopPollStep_pend [.result] <;> rw [e] <;> refine .inr ⟨hp, ?_⟩
  · exact .releasing hbusy htrace hheld htodo
  · exact .released hbusy ⟨htrace, fun h => (nomatch hpend.symm.trans h), fun _ => ⟨hheld, hlimit⟩⟩ rfl
  · exact .released hbusy ⟨htrace, fun _ => ⟨rfl, rfl⟩, fun h => nomatch hpend.symm.trans h⟩ rfl

theorem State.Transacts.micro (hbusy : u.busy = true) (h : u.Transacts trace) : u.micro.Transacts trace := by
  obtain ⟨-, hidle⟩ | ⟨hp, hstage⟩ := h
  · cases hbusy.symm.trans hidle
  cases hstage with
  | opening hbusy htrace hst hfirst hmid htodo => exact .micro_opening hp hbusy htrace hst hfirst hmid htodo
  | between hbusy htrace hheld hmid htodo => exact .micro_between hp hbusy htrace hheld hmid htodo
  | releasing hbusy htrace hheld htodo => exact .micro_releasing hp hbusy htrace hheld htodo
  | released hbusy hrel htodo =>
    obtain ⟨hissued, hfree, hexpired⟩ := hrel
    rw [State.micro_cons htodo]
    exact .inr ⟨hp, .ended ⟨hissued, hfree, hexpired⟩ rfl rfl⟩
  | ended hrel hresult htodo =>
    obtain ⟨hissued, hfree, hexpired⟩ := hrel
    rw [State.micro_nil htodo]
    exact .inr ⟨hp, .ended ⟨hissued, hfree, hexpired⟩ hresult htodo⟩

/-- A buffered command that has ended without a fault. -/
theorem State.Transacts.ended (h : u.Transacts trace) (hended : u.busy = false) (hfault : u.fault = false) :
    u.Released trace ∧ Permitted u.platform u.result := by
  obtain ⟨hf, -⟩ | ⟨hp, hstage⟩ := h
  · cases hfault.symm.trans hf
  cases hstage with
  | opening hbusy | between hbusy | releasing hbusy | released hbusy => cases hended.symm.trans hbusy
  | ended hrel hresult => exact ⟨hrel, hresult ▸ hp⟩

end

/-- A buffered command that has just been latched stands before its defensive stop. -/
theorem State.latch_transacts {i : Instr} (hi : buffered i = true) (u : State) :
    (u.latch i (commandBody i)).Transacts u.trace := by
  refine .inr ⟨.inl rfl, ?_⟩
  cases i <;> simp only [buffered, Bool.false_eq_true] at hi
  case wrbuf dev sub len =>
    exact .opening (first := [.stop]) (mid := [.write sub, .sendLoop]) rfl List.prefix_rfl rfl (.inl rfl)
      (by simp [Task.betweenStops, Task.transfers, Task.loops]) rfl
  case wrsingle dev sub b =>
    exact .opening (first := [.stop]) (mid := [.write sub, .write b]) rfl List.prefix_rfl rfl (.inl rfl)
      (by simp [Task.betweenStops, Task.transfers, Task.loops]) rfl
  case rdbuf dev sub len =>
    exact .opening (first := [.stop]) (mid := [.write sub, .start (sla dev true), .recvLoop]) rfl
      List.prefix_rfl rfl (.inl rfl) (by simp [Task.betweenStops, Task.transfers, Task.loops]) rfl

theorem State.Offered.trace {s u : State} (h : s.Offered u) : u.trace = s.trace := by
  obtain rfl | rfl := h
  · rfl
  · exact s.bufptrRead_trace

theorem State.Offered.platform {s u : State} (h : s.Offered u) : u.platform = s.platform := by
  obtain rfl | rfl := h
  · rfl
  · exact s.bufptrRead_platform

/-- A buffered command that has completed: its cleanup stop came last, and RESULT is one of its statuses. -/
theorem buffered_completes {s t : State} {i : Instr} (hi : buffered i = true) (hs : s.Accepting)
    (hexec : exec i s = .next t) (hended : t.busy = false) (hfault : t.fault = false) :
    t.Released s.trace ∧ Permitted s.platform t.result ∧ t.platform = s.platform := by
  obtain ⟨t', hexec', hissued⟩ := exec_issued i s
  cases hexec'.symm.trans hexec
  obtain ⟨⟨hready, -⟩, -⟩ := hs
  obtain ⟨hf, -⟩ | ⟨-, c, -, -, e⟩ | ⟨-, -, u, hu, e⟩ := hissued
  · cases hready.symm.trans hf
  · obtain rfl | rfl := e <;> cases hfault.symm.trans (State.raise_fault _ _)
  · have hplatform : t.platform = s.platform :=
      e ▸ ((u.latch i (commandBody i)).runBlock_surroundings u.pace).platform.trans hu.platform
    have ht : t.Transacts s.trace := by
      rw [e, ← hu.trace]
      exact State.runBlock_keeps (fun _ => .micro) _ _ (u.latch_transacts hi)
    obtain ⟨hrel, hresult⟩ := ht.ended hended hfault
    exact ⟨hrel, hplatform ▸ hresult, hplatform⟩

/-- Settles O44: a run keeps `Transacts`, and where that has ended without a fault the cleanup stop has come last. -/
theorem bufferedCommandsReleaseTheBus : Obligations.BufferedCommandsReleaseTheBus := by
  intro s t i hi hs hexec hended hfault
  obtain ⟨⟨hissued, hfree, hexpired⟩, -, hplatform⟩ := buffered_completes hi hs hexec hended hfault
  exact ⟨hissued, hfree, hplatform ▸ hexpired⟩

/-- Settles O45: a run keeps the status among the permitted ones, and RESULT is the status at the end. -/
theorem bufferedResults : Obligations.BufferedResults := by
  intro s t i hi hs hexec hended hfault
  obtain ⟨-, hresult, -⟩ := buffered_completes hi hs hexec hended hfault
  exact hresult

end Sys2Proof.Machine
end

section
/-! SUPPORT. Points that do not look at the byte loops: what they do does not depend on the latched buffer, on
memory or on what is to follow, so two commands that begin with the same such points run them alike (spec
42_buffered_operations.md R167). -/

namespace Sys2Proof.Machine

/-! ## The ends of a run -/

/-- The block, left to itself, ends the command. -/
def State.Ends (s : State) : Prop := ∃ n, (s.runBlock n).busy = false

theorem Goes.ends_iff {k : Nat} {s t : State} (h : Goes k s t) : s.Ends ↔ t.Ends := by
  constructor
  · rintro ⟨n, hn⟩
    refine ⟨n, ?_⟩
    rw [← h, Nat.add_comm, State.runBlock_add, State.runBlock_idle _ _ hn]
    exact hn
  · rintro ⟨n, hn⟩
    exact ⟨k + n, by rw [h]; exact hn⟩

/-- A command that has ended within `n` points passed every state in which it still ran before that. -/
theorem Goes.lt_of_ended {k n : Nat} {s t : State} (h : Goes k s t) (hbusy : t.busy = true)
    (hended : (s.runBlock n).busy = false) : k < n := by
  by_contra hle
  obtain ⟨m, rfl⟩ := Nat.exists_eq_add_of_le (Nat.le_of_not_lt hle)
  have hk : s.runBlock (n + m) = t := h 0
  rw [State.runBlock_add, State.runBlock_idle _ _ hended] at hk
  rw [hk, hbusy] at hended
  cases hended

/-! ## Points outside the byte loops -/

/-- The point belongs to a start, a write, a read or a stop, or is `RESULT <- s`: it does not read `len`, IDX, LBUF
or memory. -/
def Task.plain : Task → Bool
  | .stop | .stopPoll | .result => true
  | t => t.transfers

theorem Task.plain_of_transfers {t : Task} (ht : t.transfers = true) : t.plain = true := by
  cases t <;> simp_all [Task.plain, Task.transfers]

/-- What a plain point neither reads nor writes: the latched buffer, memory, the pace, and the points that are
to follow. -/
structure Setting where
  cmd : Instr
  lbuf : Addr
  idx : Nat
  olds : List Host.Cell
  mem : Memory
  pace : Nat
  after : List Task

/-- A command that runs in a setting: the points of `s`, and then those of the setting. -/
def State.within (s : State) (c : Setting) : State :=
  { s with
    busy := true
    mem := c.mem
    pace := c.pace
    run := { s.run with
      cmd := c.cmd, lbuf := c.lbuf, idx := c.idx, olds := c.olds, todo := s.run.todo ++ c.after } }

section
variable (s : State) (c : Setting)

theorem State.within_answered : (s.within c).answered = s.answered.within c := by
  unfold State.answered
  rw [show (s.within c).env = s.env from rfl]
  split <;> rfl

theorem State.within_notYet : (s.within c).notYet = (s.notYet.1, s.notYet.2.within c) := by
  unfold State.notYet
  rw [show (s.within c).platform = s.platform from rfl]
  split
  · rfl
  · rw [show (s.within c).countPoll.run.npoll = s.countPoll.run.npoll from rfl]
    split <;> rfl

theorem State.within_poll : (s.within c).poll = (s.poll.1, s.poll.2.within c) := by
  unfold State.poll
  rw [show (s.within c).answer = s.answer from rfl, s.within_answered]
  split
  · exact s.answered.within_notYet c
  · rfl

theorem State.within_stopMove : (s.within c).stopMove = s.stopMove.within c := by
  unfold State.stopMove
  rw [show (s.within c).answer = s.answer from rfl, s.within_answered]
  split <;> rfl

theorem State.within_pollStop : (s.within c).pollStop = (s.pollStop.1, s.pollStop.2.within c) := by
  unfold State.pollStop
  rw [s.within_stopMove, show (s.stopMove.within c).stoPend = s.stopMove.stoPend from rfl]
  split
  · exact s.stopMove.within_notYet c
  · rfl

theorem State.within_whenOk {ts : List Task} {body body' : State} (h : body' = body.within c) :
    (s.within c).whenOk (ts ++ c.after) body' = (s.whenOk ts body).within c := by
  unfold State.whenOk
  rw [show (s.within c).run.st = s.run.st from rfl]
  split
  · exact h
  · rfl

/-- A plain point does the same in every setting. -/
theorem State.within_taskStep {s : State} {t : Task} {ts : List Task} (c : Setting) (ht : t.plain = true) :
    (s.within c).taskStep t (ts ++ c.after) = (s.taskStep t ts).within c := by
  cases t <;> simp only [Task.plain, Task.transfers, Bool.false_eq_true] at ht <;> simp only [State.taskStep]
  case start | write | read => exact s.within_whenOk c rfl
  case startPoll =>
    unfold State.startPollStep
    rw [s.within_poll]
    rcases s.poll with ⟨p, u⟩
    cases p with
    | pending => rfl
    | expired => rfl
    | done =>
      dsimp only
      rw [show (u.within c).startAccepted = u.startAccepted from rfl]
      split <;> rfl
  case addrPoll | writePoll | readPoll =>
    simp only [State.addrPollStep, State.writePollStep, State.readPollStep, s.within_poll]
    rcases s.poll with ⟨p, u⟩
    cases p <;> rfl
  case addrDone =>
    unfold State.addrDoneStep
    rw [show (s.within c).addrAcked = s.addrAcked from rfl]
    split <;> rfl
  case stop =>
    unfold State.stopStep
    rw [show (s.within c).held = s.held from rfl]
    split <;> rfl
  case stopPoll =>
    unfold State.stopPollStep
    rw [s.within_pollStop]
    rcases s.pollStop with ⟨p, u⟩
    cases p <;> rfl
  case writeDone =>
    unfold State.writeDoneStep
    rw [show (s.within c).dataAcked = s.dataAcked from rfl]
    split <;> rfl
  case readDone | result => rfl

end

/-- After a plain point only plain points are new. -/
theorem State.taskStep_plain {s : State} {t : Task} {ts : List Task} (hs : ∀ f ∈ s.run.todo, f.plain = true)
    (htodo : s.run.todo = t :: ts) : ∀ f ∈ (s.taskStep t ts).run.todo, f.plain = true := by
  obtain ⟨ht, hts⟩ := List.forall_mem_cons.1 (htodo ▸ hs)
  cases hk : t.transfers with
  | true =>
    obtain ⟨-, front, hfront, e⟩ := State.taskStep_leads hk htodo
    rw [e]
    refine List.forall_mem_append.2 ⟨fun f hf => ?_, hts⟩
    exact Task.plain_of_transfers (hfront f hf)
  | false =>
    cases t <;> simp only [Task.plain, Task.transfers, Bool.false_eq_true, Bool.true_eq_false] at ht hk <;>
      rw [State.taskStep]
    case stop =>
      unfold State.stopStep
      split
      · exact List.forall_mem_cons.2 ⟨rfl, hts⟩
      · exact hts
    case stopPoll =>
      obtain ⟨_, ⟨_, _, _, _, rfl⟩, e | ⟨e, -⟩ | e⟩ := s.stopPollStep_cases ts <;> rw [e]
      · exact hs
      · exact hts
      · exact hts
    case result => exact hts

/-! ## Commands with a beginning in common -/

/-- If a command whose first points are the plain ones of `x` ends, then those points do: there is a state `z`
after them, the same in every setting. -/
theorem State.Ends.passes {x : State} {c : Setting} (h : (x.within c).Ends)
    (hplain : ∀ t ∈ x.run.todo, t.plain = true) :
    ∃ (k : Nat) (z : State), z.run.todo = [] ∧ z.platform = x.platform ∧
      ∀ c, Goes k (x.within c) (z.within c) := by
  obtain ⟨n, hn⟩ := h
  induction n generalizing x with
  | zero => cases hn
  | succ n ih =>
    cases htodo : x.run.todo with
    | nil => exact ⟨0, x, htodo, rfl, fun c => .zero _⟩
    | cons t ts =>
      have hstep : ∀ c, Goes 1 (x.within c) ((x.taskStep t ts).within c) := fun c => by
        rw [← State.within_taskStep c (hplain t (by simp [htodo]))]
        exact Goes.point rfl (by simp [State.within, htodo])
      rw [Nat.add_comm, hstep] at hn
      obtain ⟨k, z, hz, hplatform, hgoes⟩ := ih (State.taskStep_plain hplain htodo) hn
      exact ⟨1 + k, z, hz, hplatform.trans (x.taskStep_surroundings t ts).platform,
        fun c => (hstep c).trans (hgoes c)⟩

/-- `t` is `s` but for the pace and the latched operands. -/
def State.Alike (s t : State) : Prop := t = { s with pace := t.pace, run := t.run }

theorem State.Alike.symm {s t : State} (h : s.Alike t) : t.Alike s := by
  rw [State.Alike] at h ⊢
  rw [h]

theorem State.Alike.eq_of_pace {s t : State} {p : Nat} (h : s.Alike t) (hp : t.pace = p) :
    t = { s with pace := p, run := t.run } := hp ▸ h

/-- If `x` or `y` ends then both do, `y` with up to `d` points more, and in states that are alike. -/
def EndAlike (d : Nat) (x y : State) : Prop :=
  x.Ends ∨ y.Ends → ∃ j k f g, Goes j x f ∧ Goes k y g ∧ j ≤ k ∧ k ≤ j + d ∧
    f.busy = true ∧ f.run.todo = [] ∧ g.run.todo = [] ∧ f.Alike g

theorem EndAlike.goes {d e j k : Nat} {x x' y y' : State} (h : EndAlike d x' y') (hx : Goes j x x')
    (hy : Goes k y y') (hjk : j ≤ k) (hkj : k ≤ j + e) : EndAlike (d + e) x y := by
  intro hends
  rw [hx.ends_iff, hy.ends_iff] at hends
  obtain ⟨j', k', f, g, hf, hg, hle, hle', hrest⟩ := h hends
  exact ⟨j + j', k + k', f, g, hx.trans hf, hy.trans hg, by omega, by omega, hrest⟩

/-- Two commands that begin with the same plain points end alike if they do from where those are over. -/
theorem EndAlike.within {d : Nat} {x : State} {c c' : Setting} (hplain : ∀ t ∈ x.run.todo, t.plain = true)
    (h : ∀ z : State, z.run.todo = [] → z.platform = x.platform → EndAlike d (z.within c) (z.within c')) :
    EndAlike d (x.within c) (x.within c') := by
  intro hends
  obtain ⟨k, z, hz, hplatform, hgoes⟩ := hends.elim (State.Ends.passes · hplain) (State.Ends.passes · hplain)
  exact (h z hz hplatform).goes (e := 0) (hgoes c) (hgoes c') le_rfl le_rfl hends

/-- The points of a setting that come next, as points of the state. -/
theorem State.within_setTodo {z : State} {c : Setting} (hz : z.run.todo = []) {ts us : List Task}
    (hc : c.after = ts ++ us) : z.within c = (z.setTodo ts).within { c with after := us } := by
  simp [State.within, State.setTodo, hc, hz]

section
variable {z : State} {c : Setting} (hz : z.run.todo = [])
include hz

theorem State.todo_within : (z.within c).run.todo = c.after := by
  rw [State.within, hz]; rfl

theorem State.setTodo_within (ts : List Task) :
    (z.within c).setTodo ts = z.within { c with after := ts } := by
  rw [State.within, State.within, hz]; rfl

/-- The first point of a setting. -/
theorem Goes.point_within {t : Task} {ts : List Task} (hc : c.after = t :: ts) :
    Goes 1 (z.within c) ((z.within c).taskStep t ts) :=
  .point rfl ((State.todo_within hz).trans hc)

end

/-- The cleanup stop and `RESULT <- s` end alike in any two settings with one memory. -/
theorem endAlike_closeBus {z : State} {c c' : Setting} (hz : z.run.todo = []) (hc : c.after = closeBus)
    (hc' : c'.after = closeBus) (hmem : c'.mem = c.mem) : EndAlike 0 (z.within c) (z.within c') := by
  rw [State.within_setTodo hz (hc.trans (List.append_nil _).symm),
    State.within_setTodo hz (hc'.trans (List.append_nil _).symm)]
  refine .within (by simp [closeBus, Task.plain]) fun z hz _ => ?_
  refine fun _ => ⟨0, 0, _, _, .zero _, .zero _, le_rfl, le_rfl, rfl, ?_, ?_, ?_⟩
  · rw [State.within, hz]; rfl
  · rw [State.within, hz]; rfl
  · rw [State.Alike, State.within, State.within, hmem]

section
variable {d n : Nat} {x y : State}

theorem State.Alike.idle {f g : State} (h : f.Alike g) :
    ({ f with busy := false } : State).Alike { g with busy := false } := by
  rw [State.Alike] at h ⊢
  rw [h]

/-- Where `x` has ended, `y` has too within `d` points more. -/
theorem EndAlike.of_left (h : EndAlike d x y) (hx : (x.runBlock n).busy = false) :
    (x.runBlock n).Alike (y.runBlock (n + d)) := by
  obtain ⟨j, k, f, g, hf, hg, -, hkj, hbusy, hftodo, hgtodo, halike⟩ := h (.inl ⟨n, hx⟩)
  have hj := hf.lt_of_ended hbusy hx
  have hgbusy : g.busy = true := by rw [halike]; exact hbusy
  rw [(hf.trans (.finish hbusy hftodo)).ended rfl (by omega),
    (hg.trans (.finish hgbusy hgtodo)).ended rfl (by omega)]
  exact halike.idle

/-- Where `y` has ended, `x` has too. -/
theorem EndAlike.of_right (h : EndAlike d x y) (hy : (y.runBlock n).busy = false) :
    (x.runBlock n).Alike (y.runBlock n) := by
  obtain ⟨j, k, f, g, hf, hg, hjk, -, hbusy, hftodo, hgtodo, halike⟩ := h (.inr ⟨n, hy⟩)
  have hgbusy : g.busy = true := by rw [halike]; exact hbusy
  have hk := hg.lt_of_ended hgbusy hy
  rw [(hf.trans (.finish hbusy hftodo)).ended rfl (by omega),
    (hg.trans (.finish hgbusy hgtodo)).ended rfl (by omega)]
  exact halike.idle

end

/-! ## WRSINGLE and a WRBUF of one byte -/

/-- WRBUF's loop at a byte the platform admits and nothing has overwritten while the command runs (R162). -/
theorem State.sendLoopStep_admitted {s : State} (rest : List Task) (hst : s.run.st = .ok)
    (hidx : s.run.idx < s.run.len) (hr : s.admitsRead s.run.addr = true) (hold : s.run.olds = []) :
    s.sendLoopStep rest = s.setTodo (.write (s.mem.read s.run.addr) :: .sendNext :: rest) := by
  rw [State.sendLoopStep, if_pos ⟨hst, hidx⟩, State.memRead_admitted hr,
    State.racedByte_exact (by rw [Run.earlier, hold]; rfl)]

/-- The points the two commands have in common, before either is latched. -/
def State.opened (s : State) (dev : BitVec 7) (sub : Byte) : State :=
  { s with run := { s.run with st := .ok, todo := openWrite dev sub } }

/-- What a WRSINGLE latched in `s` adds to the points in common, `after` still to follow them. -/
def wrsingleSetting (s : State) (dev : BitVec 7) (sub b : Byte) (after : List Task) : Setting where
  cmd := .wrsingle dev sub b
  lbuf := s.run.lbuf
  idx := 0
  olds := []
  mem := s.mem
  pace := s.pace
  after := after

/-- What a WRBUF of one byte adds to them, at the index `idx` of its loop. -/
def wrbufSetting (s : State) (dev : BitVec 7) (sub : Byte) (pace idx : Nat) (after : List Task) : Setting where
  cmd := .wrbuf dev sub 1
  lbuf := s.bufptr
  idx := idx
  olds := []
  mem := s.mem
  pace := pace
  after := after

section
variable {s z : State} {dev : BitVec 7} {sub : Byte} {pace : Nat} (hz : z.run.todo = [])
include hz

/-- The loop of WRBUF at the byte that the buffer holds (R162). -/
theorem goes_sendLoop_byte (hr : s.admitsRead s.bufptr.toNat = true) (hplatform : z.platform = s.platform)
    (hst : z.run.st = .ok) :
    Goes 1 (z.within (wrbufSetting s dev sub pace 0 (.sendLoop :: closeBus)))
      ((z.setTodo [.write (s.mem.read s.bufptr.toNat)]).within
        (wrbufSetting s dev sub pace 0 (.sendNext :: closeBus))) := by
  have hread : (z.within (wrbufSetting s dev sub pace 0 (.sendLoop :: closeBus))).admitsRead s.bufptr.toNat
      = true := by
    rw [State.admitsRead, ← hplatform] at hr
    exact hr
  have h := Goes.point_within (c := wrbufSetting s dev sub pace 0 (.sendLoop :: closeBus)) hz rfl
  rw [State.taskStep, State.sendLoopStep_admitted
    (s := z.within (wrbufSetting s dev sub pace 0 (.sendLoop :: closeBus))) _ hst Nat.zero_lt_one hread rfl] at h
  exact h

/-- The end of its loop's body and the head of the loop, which has no byte left (R162). -/
theorem goes_sendNext_done :
    Goes 2 (z.within (wrbufSetting s dev sub pace 0 (.sendNext :: closeBus)))
      (z.within (wrbufSetting s dev sub pace 1 closeBus)) := by
  have hnext := Goes.point_within (c := wrbufSetting s dev sub pace 0 (.sendNext :: closeBus)) hz rfl
  have hloop := Goes.point_within (c := wrbufSetting s dev sub pace 1 (.sendLoop :: closeBus)) hz rfl
  rw [State.taskStep, State.sendLoopStep, if_neg fun h => Nat.lt_irrefl 1 h.2, State.setTodo_within hz] at hloop
  have hbump : (z.within (wrbufSetting s dev sub pace 0 (.sendNext :: closeBus))).bumpIdx =
      z.within (wrbufSetting s dev sub pace 1 (.sendNext :: closeBus)) := rfl
  rw [State.taskStep, State.sendNextStep, hbump, State.setTodo_within hz] at hnext
  exact hnext.trans hloop

/-- After an acknowledged sub-address: WRBUF's loop reads the byte that WRSINGLE names, and goes round once. -/
theorem endAlike_of_ok (hr : s.admitsRead s.bufptr.toNat = true) (hplatform : z.platform = s.platform)
    (hst : z.run.st = .ok) :
    EndAlike 3
      (z.within (wrsingleSetting s dev sub (s.mem.read s.bufptr.toNat)
        (.write (s.mem.read s.bufptr.toNat) :: closeBus)))
      (z.within (wrbufSetting s dev sub pace 0 (.sendLoop :: closeBus))) := by
  rw [State.within_setTodo (ts := [.write (s.mem.read s.bufptr.toNat)]) (us := closeBus) hz rfl]
  refine EndAlike.goes (d := 2) (e := 1) (.within (by simp [Task.plain, Task.transfers]) fun z hz _ => ?_)
    (.zero _) (goes_sendLoop_byte hz hr hplatform hst) (by omega) (by omega)
  have htail : EndAlike 0 (z.within (wrsingleSetting s dev sub (s.mem.read s.bufptr.toNat) closeBus))
      (z.within (wrbufSetting s dev sub pace 1 closeBus)) := endAlike_closeBus hz rfl rfl rfl
  exact htail.goes (e := 2) (.zero _) (goes_sendNext_done hz) (by omega) (by omega)

/-- After a sub-address that is not acknowledged neither sends the byte (R180). -/
theorem endAlike_of_not_ok (hst : z.run.st ≠ .ok) (b : Byte) :
    EndAlike 3 (z.within (wrsingleSetting s dev sub b (.write b :: closeBus)))
      (z.within (wrbufSetting s dev sub pace 0 (.sendLoop :: closeBus))) := by
  have hwrite := goes_skip (s := z.within (wrsingleSetting s dev sub b (.write b :: closeBus))) (t := .write b)
    (ts := closeBus) rfl (State.todo_within hz) hst (by simp)
  have hloop := goes_skip (s := z.within (wrbufSetting s dev sub pace 0 (.sendLoop :: closeBus))) (t := .sendLoop)
    (ts := closeBus) rfl (State.todo_within hz) hst (by simp)
  rw [State.setTodo_within hz] at hwrite hloop
  have htail : EndAlike 0 (z.within (wrsingleSetting s dev sub b closeBus))
      (z.within (wrbufSetting s dev sub pace 0 closeBus)) := endAlike_closeBus hz rfl rfl rfl
  exact htail.goes (e := 3) hwrite hloop le_rfl (by omega)

end

/-- WRSINGLE and a WRBUF of one byte that holds the same value end alike, WRBUF with up to three points more. -/
theorem endAlike_wrsingle_wrbuf {s : State} (dev : BitVec 7) (sub : Byte) (pace : Nat)
    (hr : s.admitsRead s.bufptr.toNat = true) :
    EndAlike 3
      ((s.opened dev sub).within (wrsingleSetting s dev sub (s.mem.read s.bufptr.toNat)
        (.write (s.mem.read s.bufptr.toNat) :: closeBus)))
      ((s.opened dev sub).within (wrbufSetting s dev sub pace 0 (.sendLoop :: closeBus))) := by
  refine .within (by simp [State.opened, openWrite, Task.plain, Task.transfers]) fun z hz hplatform => ?_
  by_cases hst : z.run.st = .ok
  · exact endAlike_of_ok hz hr hplatform hst
  · exact endAlike_of_not_ok hz hst _

theorem exec_wrsingle_accepting {s : State} (h : s.Accepting) (dev : BitVec 7) (sub b : Byte) :
    exec (.wrsingle dev sub b) s =
      .next (((s.opened dev sub).within (wrsingleSetting s dev sub b (.write b :: closeBus))).runBlock s.pace) := by
  refine congrArg Host.Outcome.next ((s.screen_ready _ h.1).trans ?_)
  exact s.whenConfigured_configured _ h.2

/-- A command with a buffer that lies in the buffer space, at a BUFPTR that is specified (R201). -/
theorem State.withBuffer_fits {s : State} {len : BitVec 8} (k : State → State) (hset : s.unset.bufptr = false)
    (hfits : s.bufptr.toNat + len.toNat ≤ 65536) :
    s.withBuffer len k = k { s with run := { s.run with lbuf := s.bufptr } } := by
  have hnow : s.bufptrNow = s.bufptr := by rw [State.bufptrNow, hset]; rfl
  have hread : s.bufptrRead = s := by rw [State.bufptrRead, hset]; rfl
  rw [State.withBuffer, hnow, hread]
  exact if_pos hfits

theorem exec_wrbuf_accepting {s : State} {len : Byte} (h : s.Accepting) (hset : s.unset.bufptr = false)
    (hfits : s.bufptr.toNat + len.toNat ≤ 65536) (dev : BitVec 7) (sub : Byte) :
    exec (.wrbuf dev sub len) s = .next (State.launch (.wrbuf dev sub len) (commandBody (.wrbuf dev sub len))
      { s with run := { s.run with lbuf := s.bufptr } }) := by
  refine congrArg Host.Outcome.next ((s.screen_ready _ h.1).trans ?_)
  rw [s.whenConfigured_configured _ h.2, State.withBuffer_fits _ hset hfits]
  rfl

theorem exec_wrbuf_one {s : State} (h : s.Accepting) (hset : s.unset.bufptr = false) (dev : BitVec 7)
    (sub : Byte) (pace : Nat) :
    exec (.wrbuf dev sub 1) { s with pace := pace } =
      .next (((s.opened dev sub).within (wrbufSetting s dev sub pace 0 (.sendLoop :: closeBus))).runBlock pace) :=
  exec_wrbuf_accepting (s := { s with pace := pace }) h hset (len := 1) s.bufptr.isLt dev sub

/-- Settles O38: the two commands end alike, with up to three points more for WRBUF. -/
theorem wrsingleIsWrbufOfOne : Obligations.WrsingleIsWrbufOfOne := by
  intro s t dev sub hs hset hr
  have hpace : ∀ (c : Setting) (n : Nat), (((s.opened dev sub).within c).runBlock n).pace = c.pace :=
    fun _ _ => (State.runBlock_surroundings _ _).pace
  refine ⟨fun hexec hended => ?_, fun hexec hended => ?_⟩
  · cases (exec_wrsingle_accepting hs dev sub _).symm.trans hexec
    have halike := (endAlike_wrsingle_wrbuf dev sub (s.pace + 3) hr).of_left hended
    exact ⟨_, exec_wrbuf_one hs hset dev sub (s.pace + 3), halike.eq_of_pace (hpace _ _)⟩
  · cases (exec_wrbuf_one hs hset dev sub s.pace).symm.trans hexec
    have halike := (endAlike_wrsingle_wrbuf dev sub s.pace hr).of_right hended
    exact ⟨_, exec_wrsingle_accepting hs dev sub _,
      halike.symm.eq_of_pace ((hpace _ _).trans (hpace (wrbufSetting s dev sub s.pace 0 _) _).symm)⟩

end Sys2Proof.Machine
end

section
/-! SUPPORT. RDBUF answered as it should be (spec 42_buffered_operations.md R171, R172): what the opening, the byte
loop and the closing of a buffered command come to, each said once, and the memory that the loop leaves. -/

namespace Sys2Proof.Machine

/-! ## Rising stores -/

/-- `m` after the bytes were written in rising order from `a`. -/
def Memory.fill : Memory → Nat → List Byte → Memory
  | m, _, [] => m
  | m, a, b :: bs => Memory.fill (m.write a b) (a + 1) bs

theorem Memory.fill_concat (m : Memory) (a : Nat) (bs : List Byte) (b : Byte) :
    m.fill a (bs ++ [b]) = (m.fill a bs).write (a + bs.length) b := by
  induction bs generalizing m a with
  | nil => rfl
  | cons c bs ih =>
    rw [List.cons_append, Memory.fill, ih, Memory.fill, List.length_cons, Nat.add_right_comm, Nat.add_assoc]

section
variable {m : Memory} {a : Nat} {bs : List Byte}

/-- Outside the bytes written nothing has changed. -/
theorem Memory.read_fill_outside (hm : m.Wf) (hfits : a + bs.length ≤ Config.bufSpace) {b : Nat}
    (hb : b < a ∨ a + bs.length ≤ b) : (m.fill a bs).read b = m.read b := by
  induction bs generalizing m a with
  | nil => rfl
  | cons c bs ih =>
    rw [List.length_cons] at hfits hb
    rw [Memory.fill, ih (Memory.wf_write hm (by omega) c) (by omega) (by omega), Memory.read_write hm,
      if_neg (by omega)]

/-- The bytes written stand in their order. -/
theorem Memory.read_fill_inside (hm : m.Wf) (hfits : a + bs.length ≤ Config.bufSpace) {k : Nat}
    (hk : k < bs.length) : (m.fill a bs).read (a + k) = bs.getD k 0 := by
  induction bs generalizing m a k with
  | nil => cases hk
  | cons c bs ih =>
    rw [List.length_cons] at hfits hk
    have hwf := Memory.wf_write hm (a := a) (by omega) c
    rw [Memory.fill]
    cases k with
    | zero => rw [Memory.read_fill_outside hwf (by omega) (by omega), Memory.read_write hm]; exact if_pos rfl
    | succ k =>
      rw [show a + (k + 1) = a + 1 + k by omega, ih hwf (by omega) (by omega)]
      rfl

end

/-! ## Replies -/

theorem repliesTo_append (rs qs : List Reply) (rest : List BusAnswer) :
    repliesTo (rs ++ qs) rest = repliesTo rs (repliesTo qs rest) := List.foldr_append

theorem pollCount_append (rs qs : List Reply) : pollCount (rs ++ qs) = pollCount rs + pollCount qs := by
  rw [pollCount, List.map_append, List.sum_append]; rfl

theorem pollCount_cons (r : Reply) (rs : List Reply) : pollCount (r :: rs) = r.polls + pollCount rs := rfl

theorem approach_eq (held : Bool) (x : Reply) (rs : List Reply) :
    approach held x rs = approach held x [] ++ rs := by
  rw [approach, approach, List.append_nil]

theorem transaction_eq (held : Bool) (x y : Reply) (rs qs : List Reply) :
    transaction held x y (rs ++ qs) = approach held x rs ++ (qs ++ [y]) := by
  rw [transaction, approach, approach, ← List.append_assoc, List.append_assoc _ qs]

theorem pollCount_nil : pollCount [] = 0 := rfl

/-! ## The opening and the closing of a buffered command -/

section
variable {s : State} {ts : List Task} {rest : List BusAnswer}

/-- The defensive stop, on a free or a held bus. -/
theorem goes_defensive_stop (hb : s.busy = true) (ht : s.run.todo = .stop :: ts) {x : Reply} {e : List BusAnswer}
    (he : s.env = repliesTo (approach s.held x []) e)
    (hl : ∀ r ∈ approach s.held x [], waitAllowed s.platform r.polls) :
    ∃ k p q n, k ≤ 2 + pollCount (approach s.held x []) ∧ Goes k s { s with
      held := false, phase := p, stoPend := q
      trace := s.trace ++ if s.held then [.stopCond] else []
      env := e, run := { s.run with npoll := n, todo := ts } } := by
  cases hh : s.held with
  | false =>
    rw [hh] at he
    refine ⟨1, s.phase, s.stoPend, s.run.npoll, by omega, ?_⟩
    have h := goes_stop_free hb ht hh
    have hfree : s.setTodo ts = { s with
        held := false, trace := s.trace ++ [], env := e, run := { s.run with todo := ts } } := by
      rw [List.append_nil, ← hh]
      exact congrArg (fun e => { s.setTodo ts with env := e }) he
    exact hfree ▸ h
  | true =>
    rw [hh] at he hl
    exact ⟨x.polls + 2, _, _, _, by rw [Nat.add_comm]; rfl,
      goes_stop_held hb ht hh he (hl x (List.mem_singleton.2 rfl))⟩

/-- `PrimStart` whose replies pass its checks (R125, R126). -/
theorem goes_start_acked {a : Byte} {r r' : Reply} {rs : List Reply} (hb : s.busy = true)
    (ht : s.run.todo = .start a :: ts) (hs : s.run.st = .ok) (he : s.env = repliesTo (r :: r' :: rs) rest)
    (hl : waitAllowed s.platform r.polls) (hl' : waitAllowed s.platform r'.polls)
    (hr : r.status ∈ s.platform.startBytes) (hr' : ackedAddress r'.status) :
    Goes (r.polls + r'.polls + 4) s { s with
      held := true, phase := addrPhase a, stoPend := false
      tws := r'.status, trace := s.trace ++ [.startCond, .tx a], env := repliesTo rs rest
      unset := { s.unset with tws := false }
      run := { s.run with npoll := r'.polls, todo := ts } } :=
  goes_start_ok hb ht hs he hl hl' hr hr'

/-- `PrimWrite` whose byte is acknowledged (R136). -/
theorem goes_write_acked {b : Byte} {r : Reply} {rs : List Reply} (hb : s.busy = true)
    (ht : s.run.todo = .write b :: ts) (hs : s.run.st = .ok) (he : s.env = repliesTo (r :: rs) rest)
    (hl : waitAllowed s.platform r.polls) (hr : r.status = dataTxAck) :
    Goes (r.polls + 3) s { s with
      phase := .writing, tws := dataTxAck, trace := s.trace ++ [.tx b], env := repliesTo rs rest
      unset := { s.unset with tws := false }
      run := { s.run with npoll := r.polls, todo := ts } } := by
  have h := goes_write hb ht hs he hl
  rw [hr, if_pos rfl, if_pos rfl, ← hs] at h
  exact h

/-- A buffered command up to its acknowledged sub-address (R162). -/
theorem goes_openWrite {dev : BitVec 7} {sub : Byte} {x r1 r2 r3 : Reply} {rs : List Reply} (hb : s.busy = true)
    (ht : s.run.todo = openWrite dev sub ++ ts) (hs : s.run.st = .ok)
    (he : s.env = repliesTo (approach s.held x [r1, r2, r3] ++ rs) rest)
    (hl : ∀ r ∈ approach s.held x [r1, r2, r3], waitAllowed s.platform r.polls)
    (hopens : Opens s.platform r1 r2 r3) :
    ∃ k, k ≤ 9 + pollCount (approach s.held x [r1, r2, r3]) ∧ Goes k s { s with
      held := true, phase := .writing, stoPend := false, tws := dataTxAck
      trace := s.trace ++ (if s.held then [.stopCond] else []) ++ [.startCond, .tx (sla dev false), .tx sub]
      env := repliesTo rs rest, unset := { s.unset with tws := false }
      run := { s.run with npoll := r3.polls, todo := ts } } := by
  obtain ⟨h1, h2, h3⟩ := hopens
  rw [approach_eq] at he hl ⊢
  rw [List.append_assoc, repliesTo_append] at he
  obtain ⟨hlx, hlr⟩ := List.forall_mem_append.1 hl
  obtain ⟨k, p, q, n, hk, hstop⟩ := goes_defensive_stop hb ht he hlx
  have hstart := hstop.trans
    (goes_start_acked hb rfl hs rfl (hlr r1 (by simp)) (hlr r2 (by simp)) h1 h2)
  have hwrite := hstart.trans (goes_write_acked hb rfl hs rfl (hlr r3 (by simp)) h3)
  refine ⟨_, ?_, by rwa [List.append_assoc _ [_, _] [_]] at hwrite⟩
  rw [pollCount_append]
  simp only [pollCount_cons, pollCount_nil]
  omega

/-- The cleanup stop that releases the bus, and the end of the command (R162, R181). -/
theorem goes_closeBus {y : Reply} (hb : s.busy = true) (ht : s.run.todo = closeBus) (hh : s.held = true)
    (he : s.env = repliesTo [y] rest) (hl : waitAllowed s.platform y.polls) :
    Goes (y.polls + 4) s { s with
      busy := false, held := false, phase := .stopped, stoPend := false, result := s.run.st
      trace := s.trace ++ [.stopCond], env := rest, unset := { s.unset with result := false }
      run := { s.run with npoll := y.polls, todo := [] } } :=
  ((goes_stop_held hb ht hh he hl).trans (goes_result hb rfl)).trans (.finish hb rfl)

/-! ## The byte loop of RDBUF (R171, R172) -/

/-- A store that the platform admits (20_memory.md R53), and then the check of a byte that is not the last. -/
theorem goes_store (hb : s.busy = true) (ht : s.run.todo = .store :: ts) (hs : s.run.st = .ok)
    (hw : s.admitsWrite s.run.addr = true) :
    Goes 1 s { s with
      mem := s.mem.write s.run.addr s.run.rx
      run := { s.run with
        idx := s.run.idx + 1
        st := if s.run.atLast = false ∧ s.tws ≠ dataRxAck then .slaveDataNotAcknowledging else .ok
        olds := (s.run.addr, s.mem.read s.run.addr) :: s.run.olds
        todo := ts } } := by
  have h := Goes.point hb ht
  have hcheck : (!s.run.atLast && !s.rxAcked) = true ↔ s.run.atLast = false ∧ s.tws ≠ dataRxAck := by
    simp [State.rxAcked]
  rw [State.taskStep, State.storeStep, State.whenOk, if_pos hs,
    State.memWrite_admitted (s := s.noteOld s.run.addr) _ hw] at h
  dsimp only at h
  by_cases hbad : s.run.atLast = false ∧ s.tws ≠ dataRxAck
  · rw [if_pos (hcheck.2 hbad)] at h
    rw [if_pos hbad]
    exact h
  · rw [if_neg (mt hcheck.1 hbad)] at h
    rw [if_neg hbad, ← hs]
    exact h

/-- `s` at the head of RDBUF's loop, after one byte more: received as `r` says, stored, and then checked if it is
not the last. -/
def State.received (r : Reply) (env : List BusAnswer) (s : State) : State :=
  { s with
    phase := .reading, tws := r.status, mem := s.mem.write s.run.addr r.data
    trace := s.trace ++ [.rx s.run.ackNext], env := env, unset := { s.unset with tws := false }
    run := { s.run with
      npoll := r.polls, rx := r.data, idx := s.run.idx + 1
      st := if s.run.atLast = false ∧ r.status ≠ dataRxAck then .slaveDataNotAcknowledging else .ok
      olds := (s.run.addr, s.mem.read s.run.addr) :: s.run.olds } }

/-- A byte that passes its check: the last one, or one reported as received and acknowledged. -/
theorem State.received_passed {r : Reply} {env : List BusAnswer} (hs : s.run.st = .ok)
    (hr : s.run.atLast = false → r.status = dataRxAck) :
    s.received r env = { s with
      phase := .reading, tws := r.status, mem := s.mem.write s.run.addr r.data
      trace := s.trace ++ [.rx s.run.ackNext], env := env, unset := { s.unset with tws := false }
      run := { s.run with
        npoll := r.polls, rx := r.data, idx := s.run.idx + 1
        olds := (s.run.addr, s.mem.read s.run.addr) :: s.run.olds } } := by
  rw [State.received, if_neg fun h => h.2 (hr h.1), ← hs]

/-- One byte of the loop, whatever its status. -/
theorem goes_recv_byte {r : Reply} {rs : List Reply} (hb : s.busy = true) (ht : s.run.todo = .recvLoop :: ts)
    (hs : s.run.st = .ok) (hidx : s.run.idx < s.run.len) (he : s.env = repliesTo (r :: rs) rest)
    (hl : waitAllowed s.platform r.polls) (hw : s.admitsWrite s.run.addr = true) :
    Goes (r.polls + 5) s (s.received r (repliesTo rs rest)) := by
  have hloop := Goes.point hb ht
  rw [State.taskStep, State.recvLoopStep, if_pos ⟨hs, hidx⟩] at hloop
  have hread := hloop.trans
    (goes_read (s := s.setTodo (.read s.run.ackNext :: .store :: .recvLoop :: ts)) hb rfl hs he hl)
  have hstore := hread.trans (goes_store hb rfl hs hw)
  rw [show 1 + (r.polls + 3) + 1 = r.polls + 5 by omega, ← ht] at hstore
  exact hstore

/-- The head of the loop with no byte left. -/
theorem goes_recv_done (hb : s.busy = true) (ht : s.run.todo = .recvLoop :: ts) (hidx : s.run.len ≤ s.run.idx) :
    Goes 1 s (s.setTodo ts) := by
  have h := Goes.point hb ht
  rwa [State.taskStep, State.recvLoopStep, if_neg fun h => absurd h.2 (Nat.not_lt.2 hidx)] at h

/-- `u` is `s` at the head of RDBUF's loop, after the bytes `got`, all of them passed and answered with ACK. -/
def State.Received (s : State) (got : List Reply) (env : List BusAnswer) (u : State) : Prop :=
  ∃ p v w n x o, u = { s with
    phase := p, tws := v, mem := s.mem.fill s.run.addr (got.map Reply.data)
    trace := s.trace ++ List.replicate got.length (.rx true), env := env, unset := { s.unset with tws := w }
    run := { s.run with npoll := n, rx := x, idx := s.run.idx + got.length, olds := o } }

section
variable {u : State} {got : List Reply} {env env' : List BusAnswer} {r : Reply}

theorem State.Received.nil (he : s.env = env) : s.Received [] env s := by
  refine ⟨s.phase, s.tws, s.unset.tws, s.run.npoll, s.run.rx, s.run.olds, ?_⟩
  rw [← he, List.length_nil, List.replicate_zero, List.append_nil]
  rfl

/-- Where the command stands after those bytes. -/
theorem State.Received.position (h : s.Received got env u) :
    u.busy = s.busy ∧ u.run.todo = s.run.todo ∧ u.run.st = s.run.st ∧ u.env = env ∧
      u.platform = s.platform ∧ u.run.idx = s.run.idx + got.length ∧ u.run.len = s.run.len ∧ u.run.addr = s.run.addr + got.length := by
  obtain ⟨p, v, w, n, x, o, rfl⟩ := h
  exact ⟨rfl, rfl, rfl, rfl, rfl, rfl, rfl, (Nat.add_assoc _ _ _).symm⟩

theorem Memory.fill_map_concat (m : Memory) (a : Nat) (got : List Reply) (r : Reply) :
    m.fill a ((got ++ [r]).map Reply.data) =
      (m.fill a (got.map Reply.data)).write (a + got.length) r.data := by
  rw [List.map_append, List.map_singleton, Memory.fill_concat, List.length_map]

/-- One byte more, whatever its status. -/
theorem State.Received.goes_byte {rs : List Reply} (h : s.Received got (repliesTo (r :: rs) rest) u)
    (hb : s.busy = true) (ht : s.run.todo = .recvLoop :: ts) (hs : s.run.st = .ok)
    (hidx : s.run.idx + got.length < s.run.len) (hl : waitAllowed s.platform r.polls)
    (hw : s.admitsWrite (s.run.addr + got.length) = true) :
    Goes (r.polls + 5) u (u.received r (repliesTo rs rest)) := by
  obtain ⟨hub, hut, hus, hue, huplat, huidx, hulen, huaddr⟩ := h.position
  refine goes_recv_byte (hub.trans hb) (hut.trans ht) (hus.trans hs) (by omega) hue (by rwa [huplat]) ?_
  rwa [State.admitsWrite, huplat, huaddr]

/-- One byte more that is not the last. -/
theorem State.Received.snoc (h : s.Received got env u) (hs : u.run.st = .ok) (hr : r.status = dataRxAck)
    (hmore : u.run.atLast = false) : s.Received (got ++ [r]) env' (u.received r env') := by
  obtain ⟨-, -, -, -, -, -, -, haddr⟩ := h.position
  have hpass := State.received_passed (env := env') hs fun _ => hr
  generalize (u.run.addr, u.mem.read u.run.addr) :: u.run.olds = olds at hpass
  rw [Run.ackNext, hmore, haddr] at hpass
  obtain ⟨p, v, w, n, x, o, rfl⟩ := h
  refine ⟨.reading, r.status, false, r.polls, r.data, olds, hpass.trans ?_⟩
  rw [Memory.fill_map_concat, List.length_append, List.length_singleton, List.replicate_succ', ← List.append_assoc]
  rfl

/-- The last byte, answered with NACK and taken whatever its status. -/
theorem State.Received.last (h : s.Received got env u) (hs : u.run.st = .ok) (hlast : u.run.atLast = true) :
    ∃ n x i o, (u.received r env').setTodo ts = { s with
      phase := .reading, tws := r.status, mem := s.mem.fill s.run.addr ((got ++ [r]).map Reply.data)
      trace := s.trace ++ (List.replicate got.length (.rx true) ++ [.rx false]), env := env'
      unset := { s.unset with tws := false }
      run := { s.run with npoll := n, rx := x, idx := i, olds := o, todo := ts } } := by
  obtain ⟨-, -, -, -, -, -, -, haddr⟩ := h.position
  have hpass := State.received_passed (r := r) (env := env') hs fun hmore => nomatch hlast.symm.trans hmore
  generalize (u.run.addr, u.mem.read u.run.addr) :: u.run.olds = olds at hpass
  rw [Run.ackNext, hlast, haddr] at hpass
  obtain ⟨p, v, w, n, x, o, rfl⟩ := h
  refine ⟨r.polls, r.data, s.run.idx + got.length + 1, olds, (congrArg (State.setTodo ts) hpass).trans ?_⟩
  rw [Memory.fill_map_concat, ← List.append_assoc]
  rfl

end

/-- Bytes that are not the last, each reported as received and acknowledged. -/
theorem goes_recv_acked {good rs : List Reply} (hb : s.busy = true) (ht : s.run.todo = .recvLoop :: ts)
    (hs : s.run.st = .ok) (hidx : s.run.idx + good.length < s.run.len) (he : s.env = repliesTo (good ++ rs) rest)
    (hl : ∀ r ∈ good, waitAllowed s.platform r.polls) (hgood : ∀ r ∈ good, r.status = dataRxAck)
    (hw : ∀ k < good.length, s.admitsWrite (s.run.addr + k) = true) :
    ∃ u, Goes (5 * good.length + pollCount good) s u ∧ s.Received good (repliesTo rs rest) u := by
  induction good using List.reverseRecOn generalizing rs with
  | nil => exact ⟨s, Goes.zero s, .nil he⟩
  | append_singleton good r ih =>
    rw [List.length_append, List.length_singleton] at hidx hw ⊢
    rw [List.append_assoc] at he
    obtain ⟨hl, hlr⟩ := List.forall_mem_append.1 hl
    obtain ⟨hgood, hr⟩ := List.forall_mem_append.1 hgood
    obtain ⟨u, hu, hrec⟩ := ih (by omega) he hl hgood fun k hk => hw k (by omega)
    obtain ⟨-, -, hus, -, -, huidx, hulen, -⟩ := hrec.position
    have hbyte := hrec.goes_byte hb ht hs (by omega) (hlr r (by simp)) (hw good.length (by omega))
    have hmore : u.run.atLast = false := beq_false_of_ne (by omega)
    refine ⟨_, ?_, hrec.snoc (hus.trans hs) (hr r (by simp)) hmore⟩
    have hpoints : 5 * (good.length + 1) + pollCount (good ++ [r]) =
        5 * good.length + pollCount good + (r.polls + 5) := by
      rw [pollCount_append, pollCount_cons, pollCount_nil]; omega
    exact hpoints ▸ hu.trans hbyte

/-- The whole loop, with every byte but the last reported as received and acknowledged. -/
theorem goes_recv_all {bytes rs : List Reply} (hb : s.busy = true) (ht : s.run.todo = .recvLoop :: ts)
    (hs : s.run.st = .ok) (hidx : s.run.idx = 0) (hlen : bytes.length = s.run.len)
    (he : s.env = repliesTo (bytes ++ rs) rest) (hl : ∀ r ∈ bytes, waitAllowed s.platform r.polls)
    (hacks : ∀ r ∈ bytes.dropLast, r.status = dataRxAck) (hset : s.unset.tws = false)
    (hw : ∀ k < bytes.length, s.admitsWrite (s.run.addr + k) = true) :
    ∃ p n x i o, Goes (5 * bytes.length + pollCount bytes + 1) s { s with
      phase := p, tws := (bytes.getLast?.map Reply.status).getD s.tws
      mem := s.mem.fill s.run.addr (bytes.map Reply.data)
      trace := s.trace ++ (List.replicate (bytes.length - 1) (.rx true) ++ if bytes = [] then [] else [.rx false])
      env := repliesTo rs rest
      run := { s.run with npoll := n, rx := x, idx := i, olds := o, todo := ts } } := by
  obtain rfl | ⟨good, r, rfl⟩ := List.eq_nil_or_concat' bytes
  · refine ⟨s.phase, s.run.npoll, s.run.rx, s.run.idx, s.run.olds, ?_⟩
    have hsame : s.setTodo ts = { s with
        trace := s.trace ++ [], env := repliesTo rs rest, run := { s.run with todo := ts } } := by
      rw [List.append_nil, ← (show s.env = repliesTo rs rest from he)]
      rfl
    exact hsame ▸ goes_recv_done hb ht (by rw [← hlen]; exact Nat.zero_le _)
  · rw [List.dropLast_concat] at hacks
    rw [List.length_append, List.length_singleton] at hlen hw ⊢
    rw [List.append_assoc] at he
    obtain ⟨hl, hlr⟩ := List.forall_mem_append.1 hl
    obtain ⟨u, hu, hrec⟩ := goes_recv_acked hb ht hs (by omega) he hl hacks fun k hk => hw k (by omega)
    obtain ⟨hub, hut, hus, -, -, huidx, hulen, -⟩ := hrec.position
    have hbyte := hrec.goes_byte hb ht hs (by omega) (hlr r (by simp)) (hw good.length (by omega))
    have hdone := (hu.trans hbyte).trans (goes_recv_done (ts := ts) (hub.trans hb) (hut.trans ht)
      (by change u.run.len ≤ u.run.idx + 1; omega))
    obtain ⟨n, x, i, o, e⟩ := hrec.last (r := r) (env' := repliesTo rs rest) (ts := ts) (hus.trans hs)
      (beq_iff_eq.2 (by omega))
    have hpoints : 5 * (good.length + 1) + pollCount (good ++ [r]) + 1 =
        5 * good.length + pollCount good + (r.polls + 5) + 1 := by
      rw [pollCount_append, pollCount_cons, pollCount_nil]; omega
    refine ⟨.reading, n, x, i, o, ?_⟩
    have htws : ({ s.unset with tws := false } : Unset) = s.unset := by rw [← hset]
    rw [htws] at e
    rw [List.getLast?_concat, Nat.add_sub_cancel, if_neg (by simp), hpoints]
    exact (congrArg (Goes _ s) e).mp hdone

end

/-! ## RDBUF as a command -/

section
variable {s : State} {dev : BitVec 7} {sub : Byte} {x r1 r2 r3 r4 r5 : Reply} {ts : List Task}
  {rs : List Reply} {rest : List BusAnswer}

/-- The read direction is bit 0 of the address byte (00_scope.md R12). -/
theorem addrPhase_sla_read : addrPhase (sla dev true) = .addressAckedRead := by
  rw [addrPhase, sla, BitVec.getLsbD_append]
  rfl

/-- RDBUF up to its acknowledged read address (R172). -/
theorem goes_openRead (hb : s.busy = true)
    (ht : s.run.todo = openWrite dev sub ++ .start (sla dev true) :: ts) (hs : s.run.st = .ok)
    (he : s.env = repliesTo (approach s.held x [r1, r2, r3] ++ r4 :: r5 :: rs) rest)
    (hl : ∀ r ∈ approach s.held x [r1, r2, r3] ++ [r4, r5], waitAllowed s.platform r.polls)
    (hopens : Opens s.platform r1 r2 r3) (hturns : Turns s.platform r4 r5) :
    ∃ k, k ≤ 13 + pollCount (approach s.held x [r1, r2, r3] ++ [r4, r5]) ∧ Goes k s { s with
      held := true, phase := .addressAckedRead, stoPend := false, tws := r5.status
      trace := s.trace ++ (if s.held then [.stopCond] else []) ++
        [.startCond, .tx (sla dev false), .tx sub, .startCond, .tx (sla dev true)]
      env := repliesTo rs rest, unset := { s.unset with tws := false }
      run := { s.run with npoll := r5.polls, todo := ts } } := by
  obtain ⟨h4, h5⟩ := hturns
  obtain ⟨hl, hl'⟩ := List.forall_mem_append.1 hl
  obtain ⟨k, hk, hopen⟩ := goes_openWrite hb ht hs he hl hopens
  have hturn := hopen.trans (goes_start_acked hb rfl hs rfl (hl' r4 (by simp)) (hl' r5 (by simp)) h4 h5)
  rw [addrPhase_sla_read, List.append_assoc _ [_, _, _] [_, _]] at hturn
  refine ⟨_, ?_, hturn⟩
  rw [pollCount_append, pollCount_cons, pollCount_cons, pollCount_nil]
  omega

/-- RDBUF to its end, with every check passed (R171, R172). -/
theorem goes_rdbuf {y : Reply} {bytes : List Reply} (hb : s.busy = true)
    (ht : s.run.todo = openWrite dev sub ++ .start (sla dev true) :: .recvLoop :: closeBus)
    (hs : s.run.st = .ok) (hidx : s.run.idx = 0) (hlen : bytes.length = s.run.len)
    (he : s.env = repliesTo (transaction s.held x y ([r1, r2, r3, r4, r5] ++ bytes)) rest)
    (hl : ∀ r ∈ transaction s.held x y ([r1, r2, r3, r4, r5] ++ bytes), waitAllowed s.platform r.polls)
    (hopens : Opens s.platform r1 r2 r3) (hturns : Turns s.platform r4 r5)
    (hacks : ∀ r ∈ bytes.dropLast, r.status = dataRxAck)
    (hw : ∀ k < bytes.length, s.admitsWrite (s.run.addr + k) = true) :
    ∃ k r, k ≤ 5 * bytes.length + 20 + pollCount (transaction s.held x y ([r1, r2, r3, r4, r5] ++ bytes)) ∧
      Goes k s { s with
        busy := false, held := false, phase := .stopped, stoPend := false, result := .ok
        tws := (bytes.getLast?.map Reply.status).getD r5.status
        mem := s.mem.fill s.run.addr (bytes.map Reply.data)
        trace := s.trace ++ (if s.held then [.stopCond] else []) ++
          [.startCond, .tx (sla dev false), .tx sub, .startCond, .tx (sla dev true)] ++
          (List.replicate (bytes.length - 1) (.rx true) ++ if bytes = [] then [] else [.rx false]) ++ [.stopCond]
        env := rest, unset := { s.unset with tws := false, result := false }, run := r } := by
  have hsplit : transaction s.held x y ([r1, r2, r3, r4, r5] ++ bytes) =
      approach s.held x [r1, r2, r3] ++ [r4, r5] ++ (bytes ++ [y]) := by
    rw [List.append_assoc]
    exact transaction_eq s.held x y [r1, r2, r3] ([r4, r5] ++ bytes)
  rw [hsplit] at he hl ⊢
  rw [List.append_assoc] at he
  obtain ⟨hlopen, hl⟩ := List.forall_mem_append.1 hl
  obtain ⟨hl, hly⟩ := List.forall_mem_append.1 hl
  obtain ⟨k, hk, hopen⟩ := goes_openRead hb ht hs he hlopen hopens hturns
  obtain ⟨u, hu, hopen⟩ : ∃ u, u = _ ∧ Goes k s u := ⟨_, rfl, hopen⟩
  obtain ⟨p, n, x', i, o, hloop⟩ := goes_recv_all (s := u) (ts := closeBus) (rs := [y]) (rest := rest)
    (by rw [hu]; exact hb) (by rw [hu]) (by rw [hu]; exact hs) (by rw [hu]; exact hidx) (by rw [hu]; exact hlen)
    (by rw [hu]; rfl) (by rw [hu]; exact hl) hacks (by rw [hu]) (by rw [hu]; exact hw)
  subst hu
  have hend := (hopen.trans hloop).trans (goes_closeBus hb rfl rfl rfl (hly y (by simp)))
  rw [show _ = StatusCode.ok from hs] at hend
  refine ⟨_, _, ?_, hend⟩
  rw [pollCount_append, pollCount_append bytes, pollCount_cons, pollCount_nil]
  omega

end

theorem exec_rdbuf_accepting {s : State} {len : Byte} (h : s.Accepting) (hset : s.unset.bufptr = false)
    (hfits : s.bufptr.toNat + len.toNat ≤ 65536) (dev : BitVec 7) (sub : Byte) :
    exec (.rdbuf dev sub len) s = .next (State.launch (.rdbuf dev sub len) (commandBody (.rdbuf dev sub len))
      { s with run := { s.run with lbuf := s.bufptr } }) := by
  refine congrArg Host.Outcome.next ((s.screen_ready _ h.1).trans ?_)
  rw [s.whenConfigured_configured _ h.2, State.withBuffer_fits _ hset hfits]
  rfl

/-- Settles O40: the loop's stores are a `Memory.fill`, and each of the other parts has taken its points. -/
theorem rdbufFillsTheBuffer : Obligations.RdbufFillsTheBuffer := by
  rintro s dev sub len x y r1 r2 r3 r4 r5 bytes _ rest hs hwf ⟨hset, hfits, hw⟩ hopens hturns hlen hacks rfl
    ⟨henv, hl⟩ hpace
  obtain ⟨k, r, hk, hrun⟩ := goes_rdbuf
    (s := State.latch (.rdbuf dev sub len) (commandBody (.rdbuf dev sub len))
      { s with run := { s.run with lbuf := s.bufptr } })
    rfl rfl rfl rfl hlen henv hl hopens hturns hacks (hlen ▸ hw)
  refine ⟨_, exec_rdbuf_accepting hs hset hfits dev sub, ?_⟩
  rw [State.launch, hrun.ended rfl (by rw [← hlen] at hpace; exact hk.trans hpace)]
  have hfits' : s.bufptr.toNat + (bytes.map Reply.data).length ≤ Config.bufSpace := by
    rw [List.length_map, hlen]; exact hfits
  refine ⟨?_, fun k hk => ?_, fun b hb => ?_⟩
  · have hnone : bytes = [] ↔ len = 0 := by
      rw [← List.length_eq_zero_iff, hlen]; exact BitVec.toNat_eq (y := 0) |>.symm
    simp only [Transacted, hlen, hnone, hs.1.2, List.append_assoc]
    rfl
  · exact Memory.read_fill_inside hwf hfits' (by rwa [List.length_map, hlen])
  · exact Memory.read_fill_outside hwf hfits' (by rwa [List.length_map, hlen])

end Sys2Proof.Machine
end

section
/-! SUPPORT. Entering and leaving the fault state (spec 60_exceptions.md R203 to R205): FAULT and FCAUSE are read
by no point of a command, so a command runs alike with and without a recorded fault; and what `Accept` (R201) makes
of a word written to CMD, check by check. -/

namespace Sys2Proof.Machine

/-! ## Raising a fault (R203) -/

/-- `s` with the fault `c` recorded. -/
def State.withFault (c : Cause) (s : State) : State := { s with fault := true, fcause := c }

/-- The cause that is recorded once `c` is raised: the first since reset. -/
def State.firstCause (c : Cause) (s : State) : Cause := if s.fault then s.fcause else c

theorem State.withFault_self {s : State} (h : s.fault = true) : s.withFault s.fcause = s := by
  rw [State.withFault, ← h]

/-- `raise Fault(c)` as one update of the state. -/
theorem State.raise_eq (c : Cause) (s : State) :
    s.raise c = if c = .bufAccess then
        { s.withFault (s.firstCause c) with busy := false, run := { s.run with todo := [] } }
      else s.withFault (s.firstCause c) := by
  rw [State.raise, State.firstCause]
  cases hf : s.fault with
  | false => rfl
  | true =>
    rw [if_pos rfl, if_pos rfl, State.withFault_self hf]

theorem State.raise_fcause (c : Cause) (s : State) : (s.raise c).fcause = s.firstCause c := by
  rw [State.raise_eq]
  split <;> rfl

theorem State.raise_of_ne {c : Cause} (hc : c ≠ .bufAccess) (s : State) :
    s.raise c = s.withFault (s.firstCause c) := (s.raise_eq c).trans (if_neg hc)

/-- Settles O13: `raise` is one update, and after F_BUF_ACCESS no command runs. -/
theorem faultEntry : Obligations.FaultEntry := by
  refine fun c s => ⟨s.raise_fault c, s.raise_fcause c, fun hc => ?_, fun hc => ⟨?_, fun n => ?_⟩⟩
  · rw [s.raise_fcause]
    exact s.raise_of_ne hc
  · rw [s.raise_fcause]
    exact (s.raise_eq c).trans (if_pos hc)
  · subst hc
    exact State.runBlock_idle n _ s.raise_bufAccess_busy

/-! ## A command runs alike with a fault recorded (R204) -/

section
variable (c : Cause) (s : State)

theorem State.withFault_ite (p : Prop) [Decidable p] (t u : State) :
    (if p then t else u).withFault c = if p then t.withFault c else u.withFault c :=
  apply_ite (State.withFault c) p t u

theorem State.withFault_raise_bufAccess :
    (s.withFault c).raise .bufAccess = (s.raise .bufAccess).withFault c := by
  rw [State.raise_eq, State.raise_eq]
  rfl

theorem State.withFault_answered : (s.withFault c).answered = s.answered.withFault c := by
  unfold State.answered
  rw [show (s.withFault c).env = s.env from rfl]
  split <;> rfl

theorem State.withFault_notYet : (s.withFault c).notYet = (s.notYet.1, s.notYet.2.withFault c) := by
  unfold State.notYet
  rw [show (s.withFault c).platform = s.platform from rfl]
  split
  · rfl
  · rw [show (s.withFault c).countPoll.run.npoll = s.countPoll.run.npoll from rfl]
    split <;> rfl

theorem State.withFault_poll : (s.withFault c).poll = (s.poll.1, s.poll.2.withFault c) := by
  unfold State.poll
  rw [show (s.withFault c).answer = s.answer from rfl, s.withFault_answered]
  split
  · exact s.answered.withFault_notYet c
  · rfl

theorem State.withFault_stopMove : (s.withFault c).stopMove = s.stopMove.withFault c := by
  unfold State.stopMove
  rw [show (s.withFault c).answer = s.answer from rfl, s.withFault_answered]
  split <;> rfl

theorem State.withFault_pollStop :
    (s.withFault c).pollStop = (s.pollStop.1, s.pollStop.2.withFault c) := by
  unfold State.pollStop
  rw [s.withFault_stopMove, show (s.stopMove.withFault c).stoPend = s.stopMove.stoPend from rfl]
  split
  · exact s.stopMove.withFault_notYet c
  · rfl

theorem State.withFault_picked : (s.withFault c).picked = s.picked.withFault c := by
  unfold State.picked
  rw [show (s.withFault c).picks = s.picks from rfl]
  split <;> rfl

theorem State.withFault_racedByte (a : Nat) :
    (s.withFault c).racedByte a = ((s.racedByte a).1, (s.racedByte a).2.withFault c) := by
  unfold State.racedByte
  rw [show (s.withFault c).run.earlier a = s.run.earlier a from rfl, s.withFault_picked]
  split <;> rfl

theorem State.withFault_sendLoopStep (ts : List Task) :
    (s.withFault c).sendLoopStep ts = (s.sendLoopStep ts).withFault c := by
  unfold State.sendLoopStep State.memRead
  rw [s.withFault_racedByte, s.withFault_raise_bufAccess]
  rw [show (s.withFault c).run = s.run from rfl,
    show (s.withFault c).admitsRead s.run.addr = s.admitsRead s.run.addr from rfl]
  split
  · cases s.admitsRead s.run.addr <;> rfl
  · rfl

theorem State.withFault_storeStep (ts : List Task) :
    (s.withFault c).storeStep ts = (s.storeStep ts).withFault c := by
  unfold State.storeStep State.whenOk State.memWrite
  rw [s.withFault_raise_bufAccess]
  rw [show (s.withFault c).run = s.run from rfl,
    show ((s.withFault c).noteOld s.run.addr).admitsWrite s.run.addr =
      (s.noteOld s.run.addr).admitsWrite s.run.addr from rfl,
    show (s.withFault c).rxAcked = s.rxAcked from rfl]
  split
  · cases (s.noteOld s.run.addr).admitsWrite s.run.addr <;> cases !s.run.atLast && !s.rxAcked <;> rfl
  · rfl

theorem State.withFault_taskStep (t : Task) (ts : List Task) :
    (s.withFault c).taskStep t ts = (s.taskStep t ts).withFault c := by
  cases t <;> simp only [State.taskStep]
  case config | configured | sendNext | readDone | result => rfl
  case start | write | read | addrDone | stop | writeDone | recvLoop =>
    refine Eq.trans ?_ (State.withFault_ite c _ _ _).symm
    rfl
  case readEnd =>
    unfold State.readEndStep
    rw [show (s.withFault c).run = s.run from rfl]
    split <;> rfl
  case startPoll =>
    unfold State.startPollStep
    rw [s.withFault_poll]
    rcases s.poll with ⟨p, u⟩
    cases p with
    | pending => rfl
    | expired => rfl
    | done =>
      refine Eq.trans ?_ (State.withFault_ite c _ _ _).symm
      rfl
  case addrPoll | writePoll | readPoll =>
    simp only [State.addrPollStep, State.writePollStep, State.readPollStep, s.withFault_poll]
    rcases s.poll with ⟨p, u⟩
    cases p <;> rfl
  case stopPoll =>
    unfold State.stopPollStep
    rw [s.withFault_pollStop]
    rcases s.pollStop with ⟨p, u⟩
    cases p <;> rfl
  case sendLoop => exact s.withFault_sendLoopStep c ts
  case store => exact s.withFault_storeStep c ts

theorem State.withFault_micro : (s.withFault c).micro = s.micro.withFault c := by
  unfold State.micro
  rw [show (s.withFault c).run = s.run from rfl]
  split
  · rfl
  · exact s.withFault_taskStep c _ _

theorem State.withFault_runBlock (n : Nat) :
    (s.withFault c).runBlock n = (s.runBlock n).withFault c := by
  induction n generalizing s with
  | zero => rfl
  | succ n ih =>
    cases hb : s.busy with
    | false => rw [State.runBlock_idle _ s hb, State.runBlock_idle _ (s.withFault c) hb]
    | true =>
      rw [State.runBlock_succ _ s hb, State.runBlock_succ _ (s.withFault c) hb, s.withFault_micro, ih]

end

/-! ## The first two checks of a word written to CMD (R201) -/

/-- Every word goes through the checks of FAULT and BUSY first. -/
theorem accept_screens (w : Word) : ∃ k, ∀ s, accept w s = .next (State.screen s k) := by
  unfold accept
  cases decode w with
  | none => exact ⟨_, fun _ => rfl⟩
  | some i => cases i <;> exact ⟨_, fun _ => rfl⟩

/-- A faulted block drops the word. -/
theorem accept_faulted (w : Word) {s : State} (h : s.fault = true) : accept w s = .next s := by
  obtain ⟨k, hk⟩ := accept_screens w
  rw [hk, State.screen, if_pos h]

/-- A busy block raises F_BUSY. -/
theorem accept_busy (w : Word) {s : State} (h : s.fault = false) (hb : s.busy = true) :
    accept w s = .next (s.withFault .busy) := by
  obtain ⟨k, hk⟩ := accept_screens w
  rw [hk, State.screen, if_neg (by simp [h]), if_pos hb, State.raise_first h (by decide)]
  rfl

/-! ## The host port of a faulted block (R204) -/

/-- A host read changes what it returns, and draws at most a free value (20_memory.md R58). -/
theorem State.hostRead_frame (off : Nat) (s : State) :
    s.hostRead off = { s with hostData := s.hostView off, draws := (s.hostRead off).draws } := by
  unfold State.hostRead
  split <;> rfl

/-- Settles O14: the dropped word by the first check, the running command by the points' not reading FAULT. -/
theorem faultedBlockDropsCommands : Obligations.FaultedBlockDropsCommands := by
  refine ⟨fun s rest w hf hh => ?_, fun s rest off _ hoff hh => ⟨_, step_read hoff hh, rfl, ?_⟩,
    fun s rest v _ hh => ?_, fun n s hf _ => ?_⟩
  · rw [step_write_cmd hh]
    exact accept_faulted w hf
  · exact State.hostRead_frame off { s with host := rest }
  · rw [step_write_bufptr hh, ← BitVec.setWidth_eq_extractLsb' (by decide)]
    rfl
  · rw [State.raise_first hf (by decide)]
    exact s.withFault_runBlock .busy n

/-! ## Nothing but reset leaves the fault state (R205) -/

/-- `t` has the fault flag and the cause of `s`. -/
def State.SameFault (s t : State) : Prop := t.fault = s.fault ∧ t.fcause = s.fcause

/-- A running command keeps the fault that is recorded. -/
theorem State.runBlock_sameFault {s : State} (h : s.fault = true) (n : Nat) :
    s.SameFault (s.runBlock n) := by
  have hrun := s.withFault_runBlock s.fcause n
  rw [State.withFault_self h] at hrun
  rw [hrun]
  exact ⟨h.symm, rfl⟩

theorem State.hostRead_sameFault (off : Nat) (s : State) : s.SameFault (s.hostRead off) := by
  rw [State.hostRead_frame]
  exact ⟨rfl, rfl⟩

theorem State.hostWrite_sameFault (off : Nat) (v : Word) (s : State) : s.SameFault (s.hostWrite off v) := by
  unfold State.hostWrite
  split <;> exact ⟨rfl, rfl⟩

theorem State.hostBufRead_sameFault (a : Nat) (s : State) : s.SameFault (s.hostBufRead a) := by
  obtain ⟨e, -⟩ | ⟨e, -⟩ := s.hostBufRead_cases a <;> rw [e]
  · exact ⟨rfl, rfl⟩
  · obtain e | e := (s.racedByte_cases a).2 <;> rw [e]
    · exact ⟨rfl, rfl⟩
    · exact ⟨s.picked_fault, s.picked_fcause⟩

theorem State.hostBufWrite_sameFault (a : Nat) (v : Byte) (s : State) : s.SameFault (s.hostBufWrite a v) := by
  obtain ⟨e, -⟩ | ⟨e, -⟩ := s.hostBufWrite_cases a v <;> rw [e] <;> exact ⟨rfl, rfl⟩

/-- A register access that has a next state is carried by the port, at some offset. -/
theorem State.regAccess_next {s t : State} {bytes addr : Nat}
    {k : Nat → Host.Outcome State Fault Refusal} (h : s.regAccess bytes addr k = .next t) :
    ∃ off, k off = .next t := by
  unfold State.regAccess at h
  split at h
  · split at h
    · exact ⟨_, h⟩
    · cases h
  · cases h

/-- No action of the host but reset changes a recorded fault. -/
theorem hostTurn_sameFault {a : HostAct} {rest : List HostAct} {s t : State} (hf : s.fault = true)
    (ha : a ≠ .reset) (h : hostTurn a rest s = .next t) : s.SameFault t := by
  cases a with
  | idle =>
    cases h
    exact State.runBlock_sameFault (s := { s with host := rest }) hf _
  | waitIdle =>
    simp only [hostTurn] at h
    split at h <;> cases h
    · exact State.runBlock_sameFault (s := { s with hostData := s.ctrlstat }) hf _
    · exact ⟨rfl, rfl⟩
  | read bytes addr =>
    obtain ⟨off, h⟩ := State.regAccess_next h
    cases h
    exact State.hostRead_sameFault off { s with host := rest }
  | write bytes addr v =>
    obtain ⟨off, h⟩ := State.regAccess_next h
    split at h
    · cases (accept_faulted v (s := { s with host := rest }) hf).symm.trans h
      exact ⟨rfl, rfl⟩
    · cases h
      exact State.hostWrite_sameFault off v { s with host := rest }
  | bufRead a =>
    cases h
    exact State.hostBufRead_sameFault a.toNat { s with host := rest }
  | bufWrite a v =>
    cases h
    exact State.hostBufWrite_sameFault a.toNat v { s with host := rest }
  | reset => exact absurd rfl ha

/-- Settles O15: the host's actions one by one, and the block alone by the points' not reading FAULT. -/
theorem onlyResetClearsFault : Obligations.OnlyResetClearsFault := by
  refine ⟨fun s t hf hstep hreset => ?_, fun s rest hh => ?_⟩
  · suffices h : s.SameFault t from ⟨h.1.trans hf, h.2⟩
    unfold step at hstep
    split at hstep
    · cases hstep
      exact State.runBlock_sameFault hf _
    · rename_i a rest hh
      exact hostTurn_sameFault hf (fun e => hreset rest (e ▸ hh)) hstep
  · unfold step
    rw [hh]
    exact ⟨_, rfl, rfl, rfl⟩

/-! ## The checks that follow (R201) -/

/-- What BUFPTR gives when it is read moves nothing but `draws`. -/
theorem State.bufptrRead_eq (s : State) : s.bufptrRead = { s with draws := s.bufptrRead.draws } := by
  unfold State.bufptrRead
  split <;> rfl

theorem State.bufptrRead_draws {s : State} (h : s.unset.bufptr = false) :
    s.bufptrRead.draws = s.draws := by
  rw [State.bufptrRead, if_neg (by simp [h])]

/-- The command latches a buffer. -/
def HasBuffer (i : Instr) : Prop := ∃ dev sub len, i = .wrbuf dev sub len ∨ i = .rdbuf dev sub len

/-- What a ready block makes of the command `i`: a refusal with no effect but the fault, or the command latched and
run; `d` are the draws left once BUFPTR has been read where the command reads it. -/
def Judged (i : Instr) (s t : State) : Prop :=
  ∃ d, (s.unset.bufptr = false → d = s.draws) ∧
    (∀ c, refusedBy i s = some c → t = { s with fault := true, fcause := c, draws := d }) ∧
    (refusedBy i s = none → ∃ lb, (HasBuffer i → lb = s.bufptrNow) ∧
      t = State.runBlock s.pace { s with
        draws := d, busy := true
        run := { s.run with
          cmd := i, lbuf := lb, idx := 0, st := .ok, todo := commandBody i, olds := [] } })

section
variable {i : Instr} {s : State} {k : State → State}

theorem judged_raise {c : Cause} (h : s.fault = false) (hc : c ≠ .bufAccess) (hr : refusedBy i s = some c) :
    Judged i s (s.raise c) := by
  refine ⟨s.draws, fun _ => rfl, fun c' hc' => ?_, fun hnone => nomatch hr.symm.trans hnone⟩
  cases hr.symm.trans hc'
  exact State.raise_first h hc

theorem judged_launch (hr : refusedBy i s = none) (hi : ¬ HasBuffer i) :
    Judged i s (s.launch i (commandBody i)) := by
  refine ⟨s.draws, fun _ => rfl, fun c hc => (nomatch hr.symm.trans hc), fun _ => ?_⟩
  exact ⟨s.run.lbuf, fun hbuf => absurd hbuf hi, rfl⟩

theorem State.whenConfigured_judged (h : s.fault = false)
    (hr : s.configured = false → refusedBy i s = some .notConfigured)
    (hk : s.configured = true → Judged i s (k s)) : Judged i s (s.whenConfigured k) := by
  unfold State.whenConfigured
  split
  · rename_i hc
    exact hk hc
  · rename_i hc
    exact judged_raise h (by decide) (hr (by simpa using hc))

theorem State.whenHeld_judged (h : s.fault = false) (hr : s.held = false → refusedBy i s = some .busNotHeld)
    (hk : s.held = true → Judged i s (k s)) : Judged i s (s.whenHeld k) := by
  unfold State.whenHeld
  split
  · rename_i hc
    exact hk hc
  · rename_i hc
    exact judged_raise h (by decide) (hr (by simpa using hc))

/-- WRBUF and RDBUF, once CONFIGURED is checked. -/
theorem State.withBuffer_judged {len : BitVec 8} (h : s.fault = false)
    (hr : refusedBy i s = if 65536 < s.bufptrNow.toNat + len.toNat then some .bufRange else none) :
    Judged i s (s.withBuffer len fun u => u.launch i (commandBody i)) := by
  unfold State.withBuffer Config.bufSpace
  refine ⟨s.bufptrRead.draws, State.bufptrRead_draws, fun c hc => ?_, fun hnone => ?_⟩
  · obtain ⟨hlarge, hc⟩ : 65536 < s.bufptrNow.toNat + len.toNat ∧ some .bufRange = some c := by
      simpa [hr] using hc
    cases hc
    rw [if_neg (Nat.not_le_of_lt hlarge), State.raise_first (s.bufptrRead_fault.trans h) (by decide)]
    conv_lhs => rw [s.bufptrRead_eq]
  · have hfits : s.bufptrNow.toNat + len.toNat ≤ 65536 := by simpa [hr] using hnone
    refine ⟨s.bufptrNow, fun _ => rfl, ?_⟩
    rw [if_pos hfits]
    conv_lhs => rw [s.bufptrRead_eq]
    rfl

end

/-- A ready block makes the checks of a command in the order of R201. -/
theorem exec_judged (i : Instr) {s : State} (h : s.Ready) : ∃ t, exec i s = .next t ∧ Judged i s t := by
  have hf : s.fault = false := h.1
  have hscreen {k : State → State} (hk : Judged i s (k s)) : Judged i s (s.screen k) :=
    s.screen_ready k h ▸ hk
  cases i with
  | init rate =>
    refine ⟨_, rfl, hscreen ?_⟩
    split
    · rename_i hrate
      exact judged_raise hf (by decide) (if_pos hrate)
    · rename_i hrate
      exact judged_launch (if_neg hrate) (by simp [HasBuffer])
  | start | stop | wrsingle =>
    exact ⟨_, rfl, hscreen <| s.whenConfigured_judged hf (fun hc => by simp [refusedBy, hc]) fun hc =>
      judged_launch (by simp [refusedBy, hc]) (by simp [HasBuffer])⟩
  | write | read =>
    exact ⟨_, rfl, hscreen <| s.whenConfigured_judged hf (fun hc => by simp [refusedBy, hc]) fun hc =>
      s.whenHeld_judged hf (fun hh => by simp [refusedBy, hc, hh]) fun hh =>
        judged_launch (by simp [refusedBy, hc, hh]) (by simp [HasBuffer])⟩
  | wrbuf | rdbuf =>
    exact ⟨_, rfl, hscreen <| s.whenConfigured_judged hf (fun hc => by simp [refusedBy, hc]) fun hc =>
      s.withBuffer_judged hf (by simp [refusedBy, hc])⟩

/-- Settles O12: the checks of FAULT and BUSY for every word, then Illegal, then those of the command. -/
theorem acceptanceInOrder : Obligations.AcceptanceInOrder := by
  refine ⟨fun s _ htodo => State.micro_nil htodo, fun s rest w hh => ?_⟩
  rw [step_write_cmd hh]
  refine ⟨fun hf => accept_faulted w hf, fun hf hb => accept_busy w hf hb,
    fun hs hw => accept_illegal hw hs, fun hs i hi => ?_⟩
  obtain ⟨t, ht, d, hd, hrefused, haccepted⟩ := exec_judged i (s := { s with host := rest }) hs
  have hstep : accept w { s with host := rest } = .next t := by rw [accept, hi]; exact ht
  rw [hstep]
  refine ⟨d, hd, fun c hc => congrArg _ (hrefused c hc), fun hnone => ?_⟩
  obtain ⟨lb, hlb, e⟩ := haccepted hnone
  exact ⟨lb, hlb, congrArg _ e⟩

end Sys2Proof.Machine
end

section
/-! SUPPORT. A host write to BUFPTR while a command runs (spec 70_reset_and_hazards.md R247): no point of a command
reads or writes BUFPTR, so every operation a point is made of commutes with the write. -/

namespace Sys2Proof.Machine

section
variable (v : Addr) (s : State)

/-- After the write BUFPTR is specified, so a buffered command latches it without a draw (10_state.md R42). -/
theorem State.setBufptr_bufptrNow : (s.setBufptr v).bufptrNow = v := rfl

/-! ## The operations of a point -/

theorem State.setBufptr_ite (p : Prop) [Decidable p] (t u : State) :
    (if p then t else u).setBufptr v = if p then t.setBufptr v else u.setBufptr v :=
  apply_ite (State.setBufptr v) p t u

theorem State.setBufptr_raise (c : Cause) : (s.setBufptr v).raise c = (s.raise c).setBufptr v := by
  rw [State.raise_eq, State.raise_eq, State.setBufptr_ite]
  rfl

theorem State.setBufptr_answer : (s.setBufptr v).answer = s.answer := rfl

theorem State.setBufptr_answered : (s.setBufptr v).answered = s.answered.setBufptr v := by
  simp only [State.answered, State.setBufptr_env]
  split <;> rfl

theorem State.setBufptr_notYet :
    (s.setBufptr v).notYet = (s.notYet.1, s.notYet.2.setBufptr v) := by
  simp only [State.notYet, State.setBufptr_platform]
  split
  · rfl
  · rw [show (s.setBufptr v).countPoll = s.countPoll.setBufptr v from rfl, State.setBufptr_run]
    split <;> rfl

theorem State.setBufptr_poll : (s.setBufptr v).poll = (s.poll.1, s.poll.2.setBufptr v) := by
  simp only [State.poll, State.setBufptr_answer, s.setBufptr_answered]
  split
  · exact s.answered.setBufptr_notYet v
  · rfl

theorem State.setBufptr_stopMove : (s.setBufptr v).stopMove = s.stopMove.setBufptr v := by
  simp only [State.stopMove, State.setBufptr_answer, s.setBufptr_answered]
  split <;> rfl

theorem State.setBufptr_pollStop :
    (s.setBufptr v).pollStop = (s.pollStop.1, s.pollStop.2.setBufptr v) := by
  simp only [State.pollStop, s.setBufptr_stopMove, State.setBufptr_stoPend]
  split
  · exact s.stopMove.setBufptr_notYet v
  · rfl

theorem State.setBufptr_picked : (s.setBufptr v).picked = s.picked.setBufptr v := by
  simp only [State.picked, State.setBufptr_picks]
  split <;> rfl

theorem State.setBufptr_racedByte (a : Nat) :
    (s.setBufptr v).racedByte a = ((s.racedByte a).1, (s.racedByte a).2.setBufptr v) := by
  simp only [State.racedByte, State.setBufptr_run, s.setBufptr_picked]
  split <;> rfl

theorem State.setBufptr_memRead (a : Nat) :
    (s.setBufptr v).memRead a = (s.memRead a).map (Prod.map id (State.setBufptr v)) := by
  rw [State.memRead, State.memRead, s.setBufptr_racedByte, apply_ite (Option.map _)]
  rfl

theorem State.setBufptr_memWrite (a : Nat) (b : Byte) :
    (s.setBufptr v).memWrite a b = (s.memWrite a b).map (State.setBufptr v) := by
  rw [State.memWrite, State.memWrite, apply_ite (Option.map _)]
  rfl

theorem State.setBufptr_whenOk (ts : List Task) (body : State) :
    (s.setBufptr v).whenOk ts (body.setBufptr v) = (s.whenOk ts body).setBufptr v := by
  rw [State.whenOk, State.whenOk, State.setBufptr_ite]
  rfl

/-! ## The points -/

/-- WRBUF takes its bytes from LBUF, not from BUFPTR (10_state.md R37). -/
theorem State.setBufptr_sendLoopStep (ts : List Task) :
    (s.setBufptr v).sendLoopStep ts = (s.sendLoopStep ts).setBufptr v := by
  simp only [State.sendLoopStep, State.setBufptr_run, s.setBufptr_memRead, s.setBufptr_raise]
  split
  · cases s.memRead s.run.addr <;> rfl
  · rfl

/-- RDBUF stores its bytes from LBUF on (10_state.md R37). -/
theorem State.setBufptr_storeStep (ts : List Task) :
    (s.setBufptr v).storeStep ts = (s.storeStep ts).setBufptr v := by
  refine Eq.trans ?_ (s.setBufptr_whenOk v ts _)
  rw [State.storeStep, State.setBufptr_run, s.setBufptr_raise,
    show (s.setBufptr v).noteOld s.run.addr = (s.noteOld s.run.addr).setBufptr v from rfl,
    State.setBufptr_memWrite]
  cases (s.noteOld s.run.addr).memWrite s.run.addr s.run.rx with
  | none => rfl
  | some t =>
    dsimp only [Option.map]
    rw [show (s.setBufptr v).rxAcked = s.rxAcked from rfl]
    cases !s.run.atLast && !s.rxAcked <;> rfl

theorem State.setBufptr_startPollStep (a : Byte) (ts : List Task) :
    (s.setBufptr v).startPollStep a ts = (s.startPollStep a ts).setBufptr v := by
  simp only [State.startPollStep, s.setBufptr_poll]
  rcases s.poll with ⟨p, u⟩
  cases p with
  | pending => rfl
  | expired => rfl
  | done =>
    dsimp only
    rw [State.setBufptr_ite]
    rfl

/-- A point does the same whatever is in BUFPTR, and leaves it there. -/
theorem State.setBufptr_taskStep (t : Task) (ts : List Task) :
    (s.setBufptr v).taskStep t ts = (s.taskStep t ts).setBufptr v := by
  cases t <;> simp only [State.taskStep]
  case config | configured | sendNext | readDone | result => rfl
  case start | write | read =>
    refine Eq.trans ?_ (s.setBufptr_whenOk v ts _)
    rfl
  case addrDone | stop | writeDone | recvLoop =>
    refine Eq.trans ?_ (State.setBufptr_ite v _ _ _).symm
    rfl
  case readEnd =>
    rw [State.readEndStep, State.readEndStep, State.setBufptr_run]
    split <;> rfl
  case startPoll a => exact s.setBufptr_startPollStep v a ts
  case addrPoll | writePoll | readPoll =>
    simp only [State.addrPollStep, State.writePollStep, State.readPollStep, s.setBufptr_poll]
    rcases s.poll with ⟨p, u⟩
    cases p <;> rfl
  case stopPoll =>
    simp only [State.stopPollStep, s.setBufptr_pollStop]
    rcases s.pollStop with ⟨p, u⟩
    cases p <;> rfl
  case sendLoop => exact s.setBufptr_sendLoopStep v ts
  case store => exact s.setBufptr_storeStep v ts

theorem State.setBufptr_micro : (s.setBufptr v).micro = s.micro.setBufptr v := by
  cases htodo : s.run.todo with
  | nil => rw [State.micro_nil htodo, State.micro_nil (s := s.setBufptr v) htodo]; rfl
  | cons t ts =>
    rw [State.micro_cons htodo, State.micro_cons (s := s.setBufptr v) htodo, s.setBufptr_taskStep]

/-- However far the block runs, it runs as it would have without the write. -/
theorem State.setBufptr_runBlock (n : Nat) :
    (s.setBufptr v).runBlock n = (s.runBlock n).setBufptr v := by
  induction n generalizing s with
  | zero => rfl
  | succ n ih =>
    cases hb : s.busy with
    | false => rw [State.runBlock_idle _ s hb, State.runBlock_idle _ (s.setBufptr v) hb]
    | true =>
      rw [State.runBlock_succ _ s hb, State.runBlock_succ _ (s.setBufptr v) hb, s.setBufptr_micro, ih]

end

/-- Settles O23: the write by its step, and the run of the block point by point. -/
theorem bufptrWriteSparesTheCommand : Obligations.BufptrWriteSparesTheCommand :=
  ⟨fun _ _ _ hh => step_write_bufptr hh,
    fun s v => ⟨s.setBufptr_runBlock v, s.setBufptr_bufptrNow v⟩⟩

end Sys2Proof.Machine
end

section
/-! SUPPORT. The words of the assembler's forms as bit patterns (spec 30_encoding.md R77), and the rules that are
about a fixed state, an address byte or a status byte (00_scope.md R12, 10_state.md R29, R38, R42). -/

namespace Sys2Proof.Machine

/-! ## Decoder and encoder (30_encoding.md R71 to R74) -/

/-- Settles O1: the fields of a command's word are the ones the command is written with. -/
theorem decodeOfEncode : Obligations.DecodeOfEncode := decode_encode

/-- Settles O2: a word that decodes has the command's fields, and a word is the word of its fields. -/
theorem encodeOfDecode : Obligations.EncodeOfDecode := by
  intro w i h
  rw [encode, decode_eq_some_iff.1 h, Fields.toWord_ofWord]

/-! ## The assembler's words (R77) -/

/-- A word as its opcode byte and its three operand bytes, each at its place (R71). -/
theorem toWord_eq_or (f : Fields) :
    f.toWord = (f.op ++ f.rsv ++ f.k).setWidth 32 <<< 24 ||| f.a.setWidth 32 <<< 16 |||
      f.b.setWidth 32 <<< 8 ||| f.c.setWidth 32 := by
  have push {m n : Nat} (x : BitVec m) (y : BitVec n) :
      (x ++ y).setWidth 32 = x.setWidth 32 <<< n ||| y.setWidth 32 :=
    BitVec.setWidth_append_eq_shiftLeft_setWidth_or
  calc f.toWord = (f.op ++ f.rsv ++ f.k ++ f.a ++ f.b ++ f.c).setWidth 32 := (BitVec.setWidth_eq _).symm
    _ = (((f.op ++ f.rsv ++ f.k).setWidth 32 <<< 8 ||| f.a.setWidth 32) <<< 8 ||| f.b.setWidth 32) <<< 8 |||
        f.c.setWidth 32 := by rw [push, push, push]
    _ = _ := by simp only [BitVec.shiftLeft_or_distrib, ← BitVec.shiftLeft_add]

theorem ofNat_setWidth {n w v : Nat} (h : n < 2 ^ w) :
    (BitVec.ofNat w n).setWidth v = BitVec.ofNat v n := by
  apply BitVec.eq_of_toNat_eq
  rw [BitVec.toNat_setWidth, BitVec.toNat_ofNat, BitVec.toNat_ofNat, Nat.mod_eq_of_lt h]

/-- The word of a command with one operand, in field C (R72, R73). -/
theorem toWord_byteRow {op : BitVec 4} {n : Nat} (hn : n ≤ 0xFF) :
    Fields.toWord ⟨op, 0, 0, 0, 0, BitVec.ofNat 8 n⟩ =
      (op ++ 0#3 ++ 0#1).setWidth 32 <<< 24 ||| BitVec.ofNat 32 n := by
  rw [toWord_eq_or, ofNat_setWidth (Nat.lt_succ_of_le hn)]
  simp

/-- The word of a command with a device address and two bytes (R72, R73). -/
theorem toWord_bufferedRow {op : BitVec 4} {dev sub x : Nat} (hdev : dev ≤ 0x7F) (hsub : sub ≤ 0xFF)
    (hx : x ≤ 0xFF) :
    Fields.toWord ⟨op, 0, 0, (BitVec.ofNat 7 dev).setWidth 8, BitVec.ofNat 8 sub, BitVec.ofNat 8 x⟩ =
      (op ++ 0#3 ++ 0#1).setWidth 32 <<< 24 ||| BitVec.ofNat 32 dev <<< 16 ||| BitVec.ofNat 32 sub <<< 8 |||
        BitVec.ofNat 32 x := by
  have byte {n : Nat} (h : n ≤ 0xFF) : (BitVec.ofNat 8 n).setWidth 32 = BitVec.ofNat 32 n :=
    ofNat_setWidth (by omega)
  have hdev8 : (BitVec.ofNat 7 dev).setWidth 8 = BitVec.ofNat 8 dev := ofNat_setWidth (by omega)
  rw [hdev8, toWord_eq_or, byte (by omega), byte hsub, byte hx]
  rfl

theorem assemble_wellFormed {x : Asm} {w : Word} (hx : x.wellFormed = true) (hw : x.toInstr.fields.toWord = w) :
    assemble x = some w := assemble_eq_some_iff.2 ⟨hx, hw⟩

theorem assemble_refused {x : Asm} (hx : x.wellFormed = false) : assemble x = none := if_neg (by simp [hx])

/-- Settles O6: a line with its operands in range is the word of its fields, byte by byte, and every other line is
not well formed. -/
theorem assemblerForms : Obligations.AssemblerForms := by
  refine ⟨fun n hn => ?_, by decide, by decide, by decide, fun dev sub x hdev hsub hx => ?_, fun n hn => ?_,
    fun dev sub x h => ?_⟩
  · have hwf : decide (n ≤ 0xFF) = true := decide_eq_true hn
    exact ⟨assemble_wellFormed hwf (toWord_byteRow hn), assemble_wellFormed hwf (toWord_byteRow hn),
      assemble_wellFormed hwf (toWord_byteRow hn)⟩
  · have hwf : (decide (dev ≤ 0x7F) && decide (sub ≤ 0xFF) && decide (x ≤ 0xFF)) = true := by
      simp [hdev, hsub, hx]
    exact ⟨assemble_wellFormed hwf (toWord_bufferedRow hdev hsub hx),
      assemble_wellFormed hwf (toWord_bufferedRow hdev hsub hx),
      assemble_wellFormed hwf (toWord_bufferedRow hdev hsub hx)⟩
  · have hwf : decide (n ≤ 0xFF) = false := decide_eq_false (Nat.not_le.2 hn)
    exact ⟨assemble_refused hwf, assemble_refused hwf, assemble_refused hwf⟩
  · have hwf : (decide (dev ≤ 0x7F) && decide (sub ≤ 0xFF) && decide (x ≤ 0xFF)) = false := by
      simp only [Bool.and_eq_false_iff, decide_eq_false_iff_not]
      omega
    exact ⟨assemble_refused hwf, assemble_refused hwf, assemble_refused hwf⟩

/-! ## Address bytes and status bytes -/

/-- Settles O8: the byte is the device address appended with the direction bit. -/
theorem addressByte : Obligations.AddressByte := by
  refine fun dev d => ⟨BitVec.extractLsb'_append_eq_left, ?_, sla_toNat dev d⟩
  rw [sla, BitVec.getLsbD_append]
  cases d <;> rfl

/-- A byte that is no status's is in no set of statuses, START_ACCEPT included (10_state.md R29). -/
theorem State.startAccepted_other {s : State} (h : ∀ b : BusStatus, b.code ≠ s.tws) :
    s.startAccepted = false := by
  simp [State.startAccepted, Platform.startBytes, h]

/-- Settles O58: every check compares TWS with bytes of named statuses. -/
theorem otherStatusesFail : Obligations.OtherStatusesFail := by
  refine ⟨fun a b => by cases a <;> cases b <;> decide, fun s h => ⟨State.startAccepted_other h, ?_, ?_, ?_⟩⟩
  · exact Bool.or_eq_false_iff.2 ⟨beq_false_of_ne (h .slaWAck).symm, beq_false_of_ne (h .slaRAck).symm⟩
  · exact beq_false_of_ne (h .dataTxAck).symm
  · exact beq_false_of_ne (h .dataRxAck).symm

/-! ## Reset and the step of a word, of a reset and of an idle host -/

/-- The clock that reset leaves open is one of the range (00_scope.md R7). -/
theorem reset_platform_inRange : State.reset.platform.InRange :=
  ⟨Nat.le_add_left 1 _, Config.sysClkLessOne.isLt, fun _ h => nomatch h⟩

/-- Settles O16. -/
theorem resetValues : Obligations.ResetValues :=
  ⟨rfl, rfl, rfl, rfl, rfl, rfl, rfl, rfl, rfl, rfl, reset_platform_inRange, rfl, rfl⟩

/-- Settles O53: at reset the bus is free, no fault is recorded and no command runs. -/
theorem resetMeetsInv : Obligations.ResetMeetsInv :=
  ⟨by decide, by decide, State.reset_mem_wf, nofun, nofun⟩

/-- Settles O11. -/
theorem stepRunsTheDecodedCommand : Obligations.StepRunsTheDecodedCommand := by
  intro s rest w i hh hw
  rw [step_write_cmd hh, accept, hw]

/-- The step of a reset (70_reset_and_hazards.md R230). -/
theorem step_reset {s : State} {rest : List HostAct} (hh : s.host = .reset :: rest) :
    step s = .next ({ s with host := rest } : State).resetBlock := by
  unfold step; rw [hh]; rfl

/-- Settles O17: after reset no command runs, so the block does nothing more. -/
theorem resetAbandons : Obligations.ResetAbandons :=
  fun _ _ hh => ⟨_, step_reset hh, rfl, rfl, fun n => State.runBlock_idle n _ rfl⟩

/-- The step of a host with no action left, of an idle one, and of one that polls a busy block (logs 1 and 3). -/
theorem step_alone {s : State} (hh : s.host = []) : step s = .next s.idleTurn := by
  unfold step; rw [hh]

theorem step_idle {s : State} {rest : List HostAct} (hh : s.host = .idle :: rest) :
    step s = .next ({ s with host := rest } : State).idleTurn := by
  unfold step; rw [hh]; rfl

theorem step_waitIdle_busy {s : State} {rest : List HostAct} (hh : s.host = .waitIdle :: rest)
    (hb : s.busy = true) : step s = .next ({ s with hostData := s.ctrlstat } : State).idleTurn := by
  unfold step; rw [hh]
  exact (if_pos hb).trans (by rw [hh])

theorem step_waitIdle_free {s : State} {rest : List HostAct} (hh : s.host = .waitIdle :: rest)
    (hb : s.busy = false) : step s = .next { s with host := rest, hostData := s.ctrlstat } := by
  unfold step; rw [hh]; exact if_neg (by simp [hb])

/-- Settles O55. -/
theorem idleStepRunsTheBlock : Obligations.IdleStepRunsTheBlock :=
  fun s _ => ⟨step_alone, step_idle, step_waitIdle_busy, step_waitIdle_free,
    fun n => ⟨State.runBlock_idle n s, State.runBlock_succ n s⟩⟩

/-! ## Host accesses to the register block (20_memory.md R56, R58) -/

theorem State.hostRead_draws_specified {s : State} {off : Nat} (h : s.viewIsFree off = false) :
    (s.hostRead off).draws = s.draws := by
  rw [State.hostRead, h]; rfl

theorem State.hostRead_draws_free {s : State} {off : Nat} (h : s.viewIsFree off = true) :
    (s.hostRead off).draws = s.draws + 1 := by
  rw [State.hostRead, h]; rfl

/-- CMD and the undecoded offsets read 0 and hold no register (R56, R58). -/
theorem State.hostView_unlisted (s : State) {off : Nat} (h : off = 0 ∨ 0x1C ≤ off) :
    s.hostView off = 0 ∧ s.viewIsFree off = false := by
  obtain rfl | h := h
  · exact ⟨rfl, rfl⟩
  · obtain ⟨n, rfl⟩ := Nat.exists_eq_add_of_le' h
    exact ⟨rfl, rfl⟩

/-- The low half of a word, alone. -/
theorem setWidth_setWidth_half (v : Word) : (v.setWidth 16).setWidth 32 = v &&& 0xFFFF#32 := by
  apply BitVec.eq_of_toNat_eq
  calc ((v.setWidth 16).setWidth 32).toNat = v.toNat % 2 ^ 16 % 2 ^ 32 := by
        rw [BitVec.toNat_setWidth, BitVec.toNat_setWidth]
    _ = v.toNat % 2 ^ 16 := Nat.mod_eq_of_lt (by omega)
    _ = (v &&& 0xFFFF#32).toNat := (Nat.and_two_pow_sub_one_eq_mod v.toNat 16).symm

/-- Settles O20: the step of each kind of access. -/
theorem hostAccessEffects : Obligations.HostAccessEffects := by
  refine ⟨fun s rest off hoff hh => ?_, fun s rest v hh => ?_, fun s rest off v hoff hge hh => ?_,
    fun s rest bytes addr v hlt hh => ?_⟩
  · refine ⟨_, step_read hoff hh, rfl, State.hostRead_frame off { s with host := rest },
      State.hostRead_draws_specified (s := { s with host := rest }), fun h => ?_⟩
    obtain ⟨hzero, hfree⟩ := State.hostView_unlisted { s with host := rest } h
    exact ⟨hzero, State.hostRead_draws_specified hfree⟩
  · refine ⟨_, step_write_bufptr hh, ?_, rfl⟩
    refine Eq.trans ?_ (setWidth_setWidth_half v)
    rw [BitVec.setWidth_eq_extractLsb' (x := v) (by decide)]
    rfl
  · exact step_write_ignored hoff (by omega) (by omega) hh
  · unfold step
    obtain hh | hh := hh <;> rw [hh]
    · exact State.regAccess_below (s := { s with host := rest }) hlt
    · exact State.regAccess_below (s := { s with host := rest }) hlt

/-! ## Reads of unspecified registers (10_state.md R42; log 4) -/

/-- Words that agree in a field agree under a mask inside it. -/
theorem and_eq_of_field {x y m : Word} {lo w : Nat} (h : x.extractLsb' lo w = y.extractLsb' lo w)
    (hm : ∀ n < 32, m.getLsbD n = true → lo ≤ n ∧ n < lo + w) : x &&& m = y &&& m := by
  refine BitVec.eq_of_getLsbD_eq fun n hn => ?_
  rw [BitVec.getLsbD_and, BitVec.getLsbD_and]
  cases hmn : m.getLsbD n with
  | false => simp
  | true =>
    obtain ⟨hlo, hhi⟩ := hm n hn hmn
    have hbit := congrArg (·.getLsbD (n - lo)) h
    simpa [BitVec.getLsbD_extractLsb', show n - lo < w by omega, show lo + (n - lo) = n by omega] using hbit

/-- A register alone in its word, while it is unspecified: the bits of the draw. -/
theorem State.orFree_word_free {w : Nat} (s : State) (v : BitVec w) (hw : w ≤ 32) :
    ((s.orFree true 0 v).setWidth 32).extractLsb' 0 w = (Config.freeWord s.draws).extractLsb' 0 w := by
  rw [BitVec.extractLsb'_setWidth_of_le (by omega), BitVec.extractLsb'_eq_self]
  rfl

/-- CLKCFG: DIV in the low byte, PS above it (20_memory.md R56). -/
theorem State.hostView_clkcfg_fields (s : State) :
    (s.hostView 0x14).extractLsb' 0 8 = s.orFree s.unset.div 0 s.div ∧
      (s.hostView 0x14).extractLsb' 8 2 = s.orFree s.unset.ps 8 s.ps := by
  have hword (lo w : Nat) (h : lo + w ≤ 10) : (s.hostView 0x14).extractLsb' lo w =
      ((s.orFree s.unset.ps 8 s.ps) ++ (s.orFree s.unset.div 0 s.div)).extractLsb' lo w :=
    BitVec.extractLsb'_setWidth_of_le (by omega)
  exact ⟨(hword 0 8 (by omega)).trans BitVec.extractLsb'_append_eq_right,
    (hword 8 2 (by omega)).trans BitVec.extractLsb'_append_eq_left⟩

/-- The register fields that reset leaves unspecified: the offset, the mask and the flag of each (R42). -/
def State.freeRegisters (s : State) : List (Nat × Word × Bool) :=
  [(0x04, 0xFFFF, s.unset.bufptr), (0x0C, 0x7, s.unset.result), (0x10, 0xFF, s.unset.rdata),
    (0x14, 0xFF, s.unset.div), (0x14, 0x300, s.unset.ps), (0x18, 0xFF, s.unset.tws)]

/-- While a register is unspecified the word it stands in is one that draws, and shows the draw in its bits. -/
theorem State.hostView_unspecified {s : State} {off : Nat} {bits : Word}
    (h : (off, bits, true) ∈ s.freeRegisters) :
    off % 4 = 0 ∧ s.viewIsFree off = true ∧ s.hostView off &&& bits = Config.freeWord s.draws &&& bits := by
  obtain ⟨hdiv, hps⟩ := s.hostView_clkcfg_fields
  simp only [State.freeRegisters, List.mem_cons, Prod.mk.injEq, List.not_mem_nil, or_false] at h
  obtain ⟨rfl, rfl, hu⟩ | ⟨rfl, rfl, hu⟩ | ⟨rfl, rfl, hu⟩ | ⟨rfl, rfl, hu⟩ | ⟨rfl, rfl, hu⟩ | ⟨rfl, rfl, hu⟩ := h
  · refine ⟨rfl, hu.symm, and_eq_of_field (lo := 0) (w := 16) ?_ (by decide)⟩
    exact (congrArg (fun u => ((s.orFree u 0 s.bufptr).setWidth 32).extractLsb' 0 16) hu.symm).trans
      (s.orFree_word_free s.bufptr (by decide))
  · refine ⟨rfl, hu.symm, and_eq_of_field (lo := 0) (w := 3) ?_ (by decide)⟩
    rw [State.hostView, ← hu]
    exact s.orFree_word_free _ (by decide)
  · refine ⟨rfl, hu.symm, and_eq_of_field (lo := 0) (w := 8) ?_ (by decide)⟩
    rw [State.hostView, ← hu]
    exact s.orFree_word_free _ (by decide)
  · refine ⟨rfl, Bool.or_eq_true_iff.2 (.inr hu.symm), and_eq_of_field (lo := 0) (w := 8) ?_ (by decide)⟩
    rw [hdiv, ← hu]
    rfl
  · refine ⟨rfl, Bool.or_eq_true_iff.2 (.inl hu.symm), and_eq_of_field (lo := 8) (w := 2) ?_ (by decide)⟩
    rw [hps, ← hu]
    rfl
  · refine ⟨rfl, hu.symm, and_eq_of_field (lo := 0) (w := 8) ?_ (by decide)⟩
    rw [State.hostView, ← hu]
    exact s.orFree_word_free _ (by decide)

/-- A buffered command on an accepting block whose BUFPTR is unspecified latches a draw (R42, R201). -/
theorem State.withBuffer_draws {s : State} {len : BitVec 8} (k : State → State) (hfree : s.unset.bufptr = true)
    (hfits : (s.freeField 0 16).toNat + len.toNat ≤ 65536) :
    s.withBuffer len k = k { s.drawn with run := { s.run with lbuf := s.freeField 0 16 } } := by
  rw [State.withBuffer, State.bufptrNow, State.bufptrRead, hfree]
  exact if_pos hfits

/-- Settles O22: a read by the bits of its word, a latch by the check that the drawn base passes. -/
theorem unspecifiedReadsAreDraws : Obligations.UnspecifiedReadsAreDraws := by
  refine fun s rest => ⟨fun off bits unset hmem hset hh => ?_, fun i dev sub len hi hs hfree hfits => ?_⟩
  · subst hset
    obtain ⟨hoff, hview, hbits⟩ := State.hostView_unspecified (s := s) hmem
    exact ⟨_, step_read hoff hh, State.hostRead_draws_free (s := { s with host := rest }) hview, hbits⟩
  · obtain rfl | rfl := hi <;>
    · refine congrArg Host.Outcome.next ((s.screen_ready _ hs.1).trans ?_)
      rw [s.whenConfigured_configured _ hs.2, State.withBuffer_draws _ hfree hfits]
      rfl

/-! ## Accesses to the shared buffer (20_memory.md R61; logs 9 and 19) -/

theorem step_bufWrite {s : State} {rest : List HostAct} {a : Addr} {v : Byte}
    (hh : s.host = .bufWrite a v :: rest) :
    step s = .next (({ s with host := rest } : State).hostBufWrite a.toNat v) := by
  unfold step; rw [hh]; rfl

theorem step_bufRead {s : State} {rest : List HostAct} {a : Addr} (hh : s.host = .bufRead a :: rest) :
    step s = .next (({ s with host := rest } : State).hostBufRead a.toNat) := by
  unfold step; rw [hh]; rfl

theorem State.picked_eq (s : State) :
    s.picked = { s with picks := s.picked.picks, draws := s.picked.draws } := by
  unfold State.picked
  split <;> rfl

/-- An access in a race gets the byte there or one from before, and moves nothing but the choices. -/
theorem State.racedByte_eq (s : State) (a : Nat) :
    ∃ b p d, s.racedByte a = (b, { s with picks := p, draws := d }) ∧ b ∈ s.mem.read a :: s.run.earlier a := by
  obtain ⟨hmem, e | e⟩ := s.racedByte_cases a
  · exact ⟨_, s.picks, s.draws, Prod.ext rfl e, hmem⟩
  · exact ⟨_, _, _, Prod.ext rfl (e.trans s.picked_eq), hmem⟩

/-- Settles O57: a host write by the law of a read after a write, a read by what a racing access can get. -/
theorem hostSharesTheBuffer : Obligations.HostSharesTheBuffer := by
  refine ⟨fun s rest a v hwf hh => ?_, fun s rest a hh => ?_, fun s a ha => ?_⟩
  · have hread (b : Nat) : (s.mem.write a.toNat v).read b = if b = a.toNat then v else s.mem.read b := by
      rw [Memory.read_write hwf]; exact if_congr eq_comm rfl rfl
    obtain ⟨e, -⟩ | ⟨e, hbusy, hin⟩ := ({ s with host := rest } : State).hostBufWrite_cases a.toNat v <;>
      refine ⟨_, step_bufWrite hh, ?_⟩ <;> rw [e]
    · exact ⟨rfl, hread, fun _ => rfl⟩
    · refine ⟨rfl, hread, fun h => ?_⟩
      obtain h | h := h
      · cases hbusy.symm.trans h
      · cases hin.symm.trans h
  · rw [step_bufRead hh]
    obtain ⟨b, p, d, hraced, hb⟩ := ({ s with host := rest } : State).racedByte_eq a.toNat
    obtain ⟨e, -⟩ | ⟨e, hbusy, hfills⟩ := ({ s with host := rest } : State).hostBufRead_cases a.toNat <;> rw [e]
    · exact ⟨fun _ => rfl, _, _, rfl, rfl, List.mem_cons_self, rfl⟩
    · refine ⟨fun h => ?_, _, b, rfl, ?_⟩
      · obtain h | h | h := h
        · cases hbusy.symm.trans h
        · cases hfills.symm.trans h
        · rw [State.racedByte_exact (s := { s with host := rest }) h]
      · rw [hraced]
        exact ⟨rfl, hb, rfl⟩
  · obtain ⟨b, p, d, hraced, hb⟩ := s.racedByte_eq a
    exact ⟨b, _, (State.memRead_admitted ha).trans (congrArg some hraced), hb, rfl⟩

/-! ## The race over a busy buffer, one point a step -/

/-- With at most one point a step, an idle step is one point. -/
theorem Goes.idleTurn {s t : State} (h : Goes 1 s t) (hpace : s.pace ≤ 1) : s.idleTurn = t := by
  rw [State.idleTurn, Nat.max_eq_left hpace]
  exact h 0

/-- WRBUF's loop at a byte that the platform admits, raced or not (42_buffered_operations.md R162). -/
theorem State.sendLoopStep_raced {s t : State} {b : Byte} (rest : List Task) (hst : s.run.st = .ok)
    (hidx : s.run.idx < s.run.len) (hr : s.admitsRead s.run.addr = true) (h : s.racedByte s.run.addr = (b, t)) :
    s.sendLoopStep rest = t.setTodo (.write b :: .sendNext :: rest) := by
  rw [State.sendLoopStep, if_pos ⟨hst, hidx⟩, State.memRead_admitted hr, h]

/-- A byte that was overwritten once since the command was accepted: the next choice says which of its two values
a racing access gets. -/
theorem State.racedByte_twice {s : State} {a p : Nat} {ps : List Nat} {old : Byte}
    (hearlier : s.run.earlier a = [old]) (hp : s.picks = p :: ps) :
    s.racedByte a = (if p % 2 = 0 then s.mem.read a else old, { s with picks := ps }) := by
  rw [State.racedByte, hearlier]
  dsimp only
  rw [State.pick, State.picked, hp]
  dsimp only [List.length_nil]
  obtain h | h := Nat.mod_two_eq_zero_or_one p <;> rw [h] <;> rfl

/-- A byte that the host or the block is about to overwrite for the first time. -/
theorem State.noteOld_earlier {s : State} {a : Nat} (h : s.run.earlier a = []) :
    (s.noteOld a).run.earlier a = [s.mem.read a] := by
  rw [Run.earlier] at h ⊢
  rw [State.noteOld, List.filter_cons_of_pos (by simp), List.map_cons, h]

/-- The byte at IDX is in the buffer while IDX is below `len`. -/
theorem Run.inBuffer_addr {r : Run} (h : r.idx < r.len) : r.inBuffer r.addr = true := by
  simp [Run.inBuffer, Run.addr, h]

theorem State.racedByte_host (s : State) (rest : List HostAct) (a : Nat) :
    (({ s with host := rest } : State).racedByte a).1 = (s.racedByte a).1 := by
  rw [State.racedByte, State.racedByte, show ({ s with host := rest } : State).run = s.run from rfl]
  cases s.run.earlier a <;> rfl

theorem State.racedByte_mem (s : State) (a : Nat) :
    (s.racedByte a).2.mem = s.mem ∧ (s.racedByte a).2.host = s.host := by
  obtain ⟨b, p, d, h, -⟩ := s.racedByte_eq a
  rw [h]
  exact ⟨rfl, rfl⟩

/-- What a host write to the buffer leaves: the byte written, the points still to come, and, in the buffer of a
running command, what the byte was before. -/
theorem State.hostBufWrite_leaves (s : State) (a : Nat) (v : Byte) :
    (s.hostBufWrite a v).mem = s.mem.write a v ∧ (s.hostBufWrite a v).run.todo = s.run.todo := by
  obtain ⟨e, -⟩ | ⟨e, -⟩ := s.hostBufWrite_cases a v <;> rw [e] <;> exact ⟨rfl, rfl⟩

theorem State.hostBufWrite_races {s : State} {a : Nat} (v : Byte) (hb : s.busy = true)
    (hin : s.run.inBuffer a = true) : s.hostBufWrite a v = { s.noteOld a with mem := s.mem.write a v } := by
  rw [State.hostBufWrite, hb, hin]; rfl

/-- A host read while RDBUF runs. -/
theorem State.hostBufRead_races {s : State} {a : Nat} (hb : s.busy = true)
    (hfills : fillsBuffer s.run.cmd = true) :
    (s.hostBufRead a).hostData = (s.racedByte a).1.setWidth 32 ∧ (s.hostBufRead a).mem = s.mem := by
  rw [State.hostBufRead, hb, hfills]
  exact ⟨rfl, (s.racedByte_mem a).1⟩

section
variable {s : State} {rest : List HostAct} {ts : List Task} (hh : s.host = .idle :: rest) (hpace : s.pace ≤ 1)
  (hb : s.busy = true) (hst : s.run.st = .ok)
include hh hpace hb hst

/-- The step in which WRBUF reads its next byte. -/
theorem step_sendLoop (htodo : s.run.todo = .sendLoop :: ts) (hidx : s.run.idx < s.run.len)
    (hr : s.admitsRead s.run.addr = true) :
    ∃ t, step s = .next t ∧ t.run.todo = .write (s.racedByte s.run.addr).1 :: .sendNext :: ts ∧
      t.mem = s.mem ∧ t.host = rest := by
  obtain ⟨hmem, hhost⟩ := ({ s with host := rest } : State).racedByte_mem s.run.addr
  have hpoint := Goes.idleTurn (s := { s with host := rest }) (Goes.point hb htodo) hpace
  rw [State.taskStep, State.sendLoopStep_raced (s := { s with host := rest }) ts hst hidx hr rfl] at hpoint
  refine ⟨_, (step_idle hh).trans (congrArg _ hpoint), ?_, hmem, hhost⟩
  rw [← s.racedByte_host rest]
  rfl

/-- The step in which RDBUF stores the byte it received. -/
theorem step_store (htodo : s.run.todo = .store :: ts) (hw : s.admitsWrite s.run.addr = true) :
    ∃ t, step s = .next t ∧ t.mem = s.mem.write s.run.addr s.run.rx ∧ t.host = rest ∧ t.busy = true ∧
      t.run.cmd = s.run.cmd ∧ t.picks = s.picks ∧ t.hostData = s.hostData ∧
      t.run.olds = (s.run.addr, s.mem.read s.run.addr) :: s.run.olds := by
  have hpoint := Goes.idleTurn (s := { s with host := rest }) (goes_store hb htodo hst hw) hpace
  exact ⟨_, (step_idle hh).trans (congrArg _ hpoint), rfl, rfl, hb, rfl, rfl, rfl, rfl⟩

end

section
variable {s : State} {rest : List HostAct} {ts : List Task} {a : Addr} {p : Nat} {ps : List Nat}
  (hwf : s.mem.Wf) (hpace : s.pace ≤ 1) (hb : s.busy = true) (hst : s.run.st = .ok)
  (ha : a.toNat = s.run.addr) (hearlier : s.run.earlier s.run.addr = [])
  (hp : s.picks = p :: ps)
include hwf hpace hb hst ha hearlier hp

/-- A host write to the byte WRBUF reads next, before the block's read and after it. -/
theorem wrbuf_race (v : Byte) (htodo : s.run.todo = .sendLoop :: ts) (hidx : s.run.idx < s.run.len)
    (hr : s.admitsRead s.run.addr = true) :
    ∃ t1 t2 u1 u2,
      step { s with host := .bufWrite a v :: .idle :: rest } = .next t1 ∧ step t1 = .next u1 ∧
      u1.run.todo = .write (if p % 2 = 0 then v else s.mem.read a.toNat) :: .sendNext :: ts ∧
      step { s with host := .idle :: .bufWrite a v :: rest } = .next t2 ∧ step t2 = .next u2 ∧
      u2.run.todo = .write (s.mem.read a.toNat) :: .sendNext :: ts ∧
      u1.mem = u2.mem ∧ u1.mem.read a.toNat = v := by
  have hwritten : (s.mem.write s.run.addr v).read s.run.addr = v := by
    rw [Memory.read_write hwf, if_pos rfl]
  obtain ⟨t1, ht1, hstep⟩ : ∃ t1 : State, t1 = { s.noteOld s.run.addr with
      mem := s.mem.write s.run.addr v, host := .idle :: rest } ∧
      step { s with host := .bufWrite a v :: .idle :: rest } = .next t1 := by
    refine ⟨_, rfl, (step_bufWrite rfl).trans (congrArg _ ?_)⟩
    rw [ha]
    exact State.hostBufWrite_races (s := { s with host := .idle :: rest }) v hb (Run.inBuffer_addr hidx)
  have hearly : (t1.racedByte s.run.addr).1 = if p % 2 = 0 then v else s.mem.read s.run.addr := by
    rw [State.racedByte_twice (s := t1) (by rw [ht1]; exact State.noteOld_earlier hearlier) (by rw [ht1]; exact hp)]
    rw [show t1.mem.read s.run.addr = v by rw [ht1]; exact hwritten]
  obtain ⟨u1, hu1, htodo1, hmem1, -⟩ := step_sendLoop (s := t1) (rest := rest) (ts := ts) (by rw [ht1])
    (by rw [ht1]; exact hpace) (by rw [ht1]; exact hb) (by rw [ht1]; exact hst) (by rw [ht1]; exact htodo)
    (by rw [ht1]; exact hidx) (by rw [ht1]; exact hr)
  obtain ⟨t2, hstep2, htodo2, hmem2, hhost2⟩ := step_sendLoop (s := { s with host := .idle :: .bufWrite a v :: rest })
    rfl hpace hb hst htodo hidx hr
  rw [State.racedByte_host, State.racedByte_exact hearlier] at htodo2
  obtain ⟨hmem, htodo3⟩ := ({ t2 with host := rest } : State).hostBufWrite_leaves a.toNat v
  refine ⟨t1, t2, u1, _, hstep, hu1, ?_, hstep2, step_bufWrite hhost2, ?_, ?_, ?_⟩
  · rw [htodo1, ha, ← hearly, ht1]; rfl
  · rw [htodo3, ha, ← htodo2]
  · rw [hmem, hmem1, ht1, ha]
    exact congrArg (Memory.write · _ _) hmem2.symm
  · rw [hmem1, ht1, ha]; exact hwritten

/-- A host read of the byte RDBUF stores next, after the store and before it. -/
theorem rdbuf_race (hfills : fillsBuffer s.run.cmd = true) (htodo : s.run.todo = .store :: ts)
    (hw : s.admitsWrite s.run.addr = true) :
    ∃ t1 t2 u1 u2,
      step { s with host := .idle :: .bufRead a :: rest } = .next t1 ∧ step t1 = .next u1 ∧
      u1.hostData = (if p % 2 = 0 then s.run.rx else s.mem.read a.toNat).setWidth 32 ∧
      step { s with host := .bufRead a :: .idle :: rest } = .next t2 ∧ step t2 = .next u2 ∧
      u2.hostData = (s.mem.read a.toNat).setWidth 32 ∧
      u1.mem = u2.mem ∧ u1.mem.read a.toNat = s.run.rx := by
  have hstored : (s.mem.write s.run.addr s.run.rx).read s.run.addr = s.run.rx := by
    rw [Memory.read_write hwf, if_pos rfl]
  obtain ⟨t1, hstep1, hmem1, hhost1, hb1, hcmd1, hpicks1, -, holds1⟩ :=
    step_store (s := { s with host := .idle :: .bufRead a :: rest }) rfl hpace hb hst htodo hw
  have hearlier1 : t1.run.earlier s.run.addr = [s.mem.read s.run.addr] := by
    rw [← State.noteOld_earlier hearlier, Run.earlier, Run.earlier, holds1]
    rfl
  have hlate : (t1.racedByte s.run.addr).1 = if p % 2 = 0 then s.run.rx else s.mem.read s.run.addr := by
    rw [State.racedByte_twice hearlier1 (hpicks1.trans hp), hmem1]
    exact congrArg (if p % 2 = 0 then · else _) hstored
  obtain ⟨hdata, hmem⟩ := State.hostBufRead_races (s := { t1 with host := rest }) (a := a.toNat) hb1
    (by rw [← hfills, ← hcmd1])
  have hread : (({ s with host := .idle :: rest } : State).hostBufRead a.toNat) =
      { s with host := .idle :: rest, hostData := (s.mem.read a.toNat).setWidth 32 } := by
    obtain ⟨e, -⟩ | ⟨e, -⟩ := ({ s with host := .idle :: rest } : State).hostBufRead_cases a.toNat <;> rw [e]
    rw [State.racedByte_exact (s := { s with host := .idle :: rest }) (by rw [ha]; exact hearlier)]
  obtain ⟨u2, hstep2, hmem2, -, -, -, -, hdata2, -⟩ := step_store
    (s := { s with host := .idle :: rest, hostData := (s.mem.read a.toNat).setWidth 32 }) rfl hpace hb hst htodo hw
  refine ⟨t1, _, _, u2, hstep1, step_bufRead hhost1, ?_, (step_bufRead rfl).trans (congrArg _ hread), hstep2, hdata2,
    hmem.trans (hmem1.trans hmem2.symm), ?_⟩
  · rw [hdata, State.racedByte_host, ha, hlate]
  · rw [hmem, ha]
    exact (congrArg (Memory.read · _) hmem1).trans hstored

end

/-- Settles O24: in each order the block's point and the host's access, one after the other. -/
theorem bufferRaceAdmitsBothValues : Obligations.BufferRaceAdmitsBothValues := by
  intro s rest ts a p ps hwf hpace hb hst hidx ha hearlier hp
  replace ha : a.toNat = s.run.addr := ha
  refine ⟨fun v htodo hr => ?_, fun dev sub len hcmd htodo hw => ?_⟩
  · exact wrbuf_race hwf hpace hb hst ha (ha ▸ hearlier) hp v htodo hidx (ha ▸ hr)
  · exact rdbuf_race hwf hpace hb hst ha (ha ▸ hearlier) hp (by rw [hcmd]; rfl) htodo (ha ▸ hw)

end Sys2Proof.Machine
end

section
/-! SUPPORT. What one step can do, said once (spec 00_scope.md R6, 60_exceptions.md R201), and what every step keeps:
the invariant of HELD, PHASE, FAULT, memory and the points to come (10_state.md R38), the parameters, the record of
bus operations. -/

namespace Sys2Proof.Machine

/-! ## One step, by cases -/

/-- What the command `i` comes to: it is dropped, it is refused with a fault, or it is latched with its buffer's base
and run. -/
inductive Accepted (i : Instr) (s : State) : State → Prop
  | dropped : Accepted i s s
  | refused {c : Cause} (d : Nat) (hc : c ≠ .none) :
      Accepted i s { s with fault := true, fcause := c, draws := d }
  | launched {lb : Addr} (d : Nat) (hi : refusedBy i s = none) (hlb : HasBuffer i → lb = s.bufptrNow) :
      Accepted i s (State.runBlock s.pace { s with
        draws := d, busy := true
        run := { s.run with cmd := i, lbuf := lb, idx := 0, st := .ok, todo := commandBody i, olds := [] } })

/-- No check refuses a command with the cause none. -/
theorem refusedBy_ne_none (i : Instr) (s : State) : refusedBy i s ≠ some .none := by
  cases i <;> simp only [refusedBy] <;> split_ifs <;> simp

/-- A command whose checks pass has no buffer, or one that fits from the base it latches (20_memory.md R51). -/
theorem buffer_fits_of_accepted {i : Instr} {s : State} {lb : Addr} (h : refusedBy i s = none)
    (hlb : HasBuffer i → lb = s.bufptrNow) : lb.toNat + cmdLen i ≤ 65536 := by
  cases i with
  | init | start | stop | write | read | wrsingle => exact Nat.le_of_lt lb.isLt
  | wrbuf dev sub len | rdbuf dev sub len =>
    rw [hlb ⟨dev, sub, len, by simp⟩]
    simp only [refusedBy] at h
    split_ifs at h with _ hfits
    exact Nat.le_of_not_lt hfits

/-- The first two checks of a word written to CMD (60_exceptions.md R201), and what is left for a ready block. -/
theorem accept_cases {w : Word} {s t : State} (i : Instr) (h : accept w s = .next t)
    (hready : s.Ready → Accepted i s t) : Accepted i s t := by
  by_cases hf : s.fault = true
  · cases (accept_faulted _ hf).symm.trans h
    exact .dropped
  by_cases hb : s.busy = true
  · cases (accept_busy _ (by simpa using hf) hb).symm.trans h
    exact .refused s.draws (by decide)
  · exact hready ⟨by simpa using hf, by simpa using hb⟩

theorem exec_accepted {i : Instr} {s t : State} (h : exec i s = .next t) : Accepted i s t := by
  have haccept : accept (encode i) s = .next t := by rw [accept, decode_encode]; exact h
  refine accept_cases i haccept fun hready => ?_
  obtain ⟨t', ht', d, -, hrefused, hlaunched⟩ := exec_judged i hready
  cases ht'.symm.trans h
  cases hr : refusedBy i s with
  | some c =>
    rw [hrefused c hr]
    exact .refused d fun hc => refusedBy_ne_none i s (hc ▸ hr)
  | none =>
    obtain ⟨lb, hlb, e⟩ := hlaunched hr
    rw [e]
    exact .launched d hr hlb

/-- An illegal word comes to what a refused command does. -/
theorem accept_accepted {w : Word} {s t : State} (h : accept w s = .next t) : ∃ i, Accepted i s t := by
  cases hw : decode w with
  | some i =>
    rw [accept, hw] at h
    exact ⟨i, exec_accepted h⟩
  | none =>
    refine ⟨.stop, accept_cases _ h fun hready => ?_⟩
    cases (accept_illegal hw hready).symm.trans h
    exact .refused s.draws (by decide)

/-- Everything a step can come to. -/
inductive Stepped (s : State) : State → Prop
  | runs (n : Nat) (host : List HostAct) (data : Word) :
      Stepped s (({ s with host := host, hostData := data } : State).runBlock n)
  | looks (host : List HostAct) (data : Word) (draws : Nat) (picks : List Nat) :
      Stepped s { s with host := host, hostData := data, draws := draws, picks := picks }
  | issues {w : Word} {rest : List HostAct} {i : Instr} {t : State}
      (hh : s.host = .write 4 s.platform.regBase w :: rest) (h : Accepted i { s with host := rest } t) : Stepped s t
  | setsBufptr (rest : List HostAct) (v : Addr) : Stepped s (({ s with host := rest } : State).setBufptr v)
  | stores (rest : List HostAct) (olds : List Host.Cell) (a : Addr) (v : Byte) :
      Stepped s { s with host := rest, mem := s.mem.write a.toNat v, run := { s.run with olds := olds } }
  | resets (rest : List HostAct) : Stepped s ({ s with host := rest } : State).resetBlock

/-- A register access that has a next state is an aligned one of a whole word, at some offset from REG_BASE. -/
theorem State.regAccess_carried {s t : State} {bytes addr : Nat}
    {k : Nat → Host.Outcome State Fault Refusal} (h : s.regAccess bytes addr k = .next t) :
    ∃ off, bytes = 4 ∧ addr = s.platform.regBase + off ∧ k off = .next t := by
  unfold State.regAccess State.regOffset at h
  split at h
  · rename_i off hoff
    obtain ⟨hle, hoff⟩ := Option.ite_none_right_eq_some.1 hoff
    cases hoff
    split at h
    · rename_i hword
      obtain ⟨hbytes, -⟩ := (Bool.and_eq_true _ _).mp hword
      exact ⟨_, beq_iff_eq.1 hbytes, (Nat.add_sub_cancel' hle).symm, h⟩
    · cases h
  · cases h

theorem hostTurn_stepped {s t : State} {a : HostAct} {rest : List HostAct} (hh : s.host = a :: rest)
    (h : hostTurn a rest s = .next t) : Stepped s t := by
  cases a with
  | idle =>
    cases h
    exact .runs _ rest s.hostData
  | waitIdle =>
    simp only [hostTurn] at h
    split at h <;> cases h
    · exact .runs _ s.host s.ctrlstat
    · exact .looks rest s.ctrlstat s.draws s.picks
  | read bytes addr =>
    obtain ⟨off, -, -, h⟩ := State.regAccess_carried h
    cases h
    rw [State.hostRead_frame]
    exact .looks rest _ _ s.picks
  | write bytes addr v =>
    obtain ⟨off, rfl, rfl, hoff⟩ := State.regAccess_carried h
    split at hoff
    · rename_i hcmd
      subst hcmd
      obtain ⟨i, hi⟩ := accept_accepted hoff
      exact .issues hh hi
    · cases hoff
      unfold State.hostWrite
      split
      · exact .setsBufptr rest _
      · exact .looks rest s.hostData s.draws s.picks
  | bufRead a =>
    cases h
    obtain ⟨b, p, d, hraced, -⟩ := ({ s with host := rest } : State).racedByte_eq a.toNat
    obtain ⟨e, -⟩ | ⟨e, -⟩ := ({ s with host := rest } : State).hostBufRead_cases a.toNat <;> rw [e]
    · exact .looks rest _ s.draws s.picks
    · rw [hraced]
      exact .looks rest _ d p
  | bufWrite a v =>
    cases h
    obtain ⟨e, -⟩ | ⟨e, -⟩ := ({ s with host := rest } : State).hostBufWrite_cases a.toNat v <;> rw [e]
    · exact .stores rest s.run.olds a v
    · exact .stores rest _ a v
  | reset =>
    cases h
    exact .resets rest

theorem step_stepped {s t : State} (h : step s = .next t) : Stepped s t := by
  unfold step at h
  split at h
  · cases h
    exact .runs _ s.host s.hostData
  · rename_i a rest hh
    exact hostTurn_stepped hh h

/-- Settles O21: only a word written to CMD can latch a command, and a block without one does nothing. -/
theorem onlyCommandsStartTheBlock : Obligations.OnlyCommandsStartTheBlock := by
  intro s t hb hcmd hstep
  cases step_stepped hstep with
  | runs n host data =>
    rw [State.runBlock_idle n { s with host := host, hostData := data } hb]
    exact ⟨hb, rfl, rfl⟩
  | issues hh => exact absurd hh (hcmd _ _)
  | looks | setsBufptr | stores => exact ⟨hb, rfl, rfl⟩
  | resets => exact ⟨rfl, rfl, rfl⟩

/-! ## The record of bus operations -/

/-- A point of a command only appends to the record. -/
theorem State.taskStep_trace {s : State} {t : Task} {ts : List Task} (htodo : s.run.todo = t :: ts) :
    s.trace <+: (s.taskStep t ts).trace := by
  cases hbetween : t.betweenStops with
  | true =>
    obtain e | ⟨hadv, -⟩ := State.taskStep_betweenStops hbetween htodo
    · rw [e, State.raise_eq]
      exact List.prefix_rfl
    · exact hadv.trace
  | false =>
    cases t <;> simp only [Task.betweenStops, Task.transfers, Task.loops, Bool.or_true, Bool.true_eq_false,
      Bool.or_false] at hbetween <;> rw [State.taskStep]
    case config | configured | result => exact List.prefix_rfl
    case stop =>
      unfold State.stopStep
      split
      · exact List.prefix_append _ _
      · exact List.prefix_rfl
    case stopPoll =>
      obtain ⟨_, ⟨_, _, _, _, rfl⟩, e | ⟨e, -⟩ | e⟩ := s.stopPollStep_cases ts <;> rw [e] <;> exact List.prefix_rfl
    case readEnd =>
      unfold State.readEndStep
      split <;> exact List.prefix_rfl

theorem State.micro_trace (s : State) : s.trace <+: s.micro.trace := by
  cases htodo : s.run.todo with
  | nil => rw [State.micro_nil htodo]
  | cons t ts => rw [State.micro_cons htodo]; exact State.taskStep_trace htodo

theorem State.runBlock_trace (n : Nat) (s : State) : s.trace <+: (s.runBlock n).trace :=
  State.runBlock_keeps (P := fun u => s.trace <+: u.trace) (fun u _ h => h.trans u.micro_trace) n s List.prefix_rfl

/-- Settles O54: the block by its points, which write no parameter and only append to the record. -/
theorem platformIsFixed : Obligations.PlatformIsFixed := by
  intro s t hstep
  have hrun (u : State) (n : Nat) (hp : u.platform = s.platform) (hpace : u.pace = s.pace)
      (htrace : u.trace = s.trace) :
      (u.runBlock n).platform = s.platform ∧ (u.runBlock n).pace = s.pace ∧ s.trace <+: (u.runBlock n).trace :=
    ⟨(u.runBlock_surroundings n).platform.trans hp, (u.runBlock_surroundings n).pace.trans hpace,
      htrace ▸ u.runBlock_trace n⟩
  cases step_stepped hstep with
  | runs n host data => exact hrun _ n rfl rfl rfl
  | issues _ h =>
    cases h with
    | dropped | refused => exact ⟨rfl, rfl, List.prefix_rfl⟩
    | launched d => exact hrun _ _ rfl rfl rfl
  | looks | setsBufptr | stores | resets => exact ⟨rfl, rfl, List.prefix_rfl⟩

end Sys2Proof.Machine
end

section
/-! SUPPORT. The machine's invariant (spec 10_state.md R38, 60_exceptions.md R202, 20_memory.md R51): every point of a
running command keeps it, and so does every step. -/

namespace Sys2Proof.Machine

/-! ## What is still to be done -/

/-- The points to come fit HELD and the status: `State.PlanFits` of a running command. -/
def Plan (held : Bool) (st : StatusCode) (todo : List Task) : Prop :=
  (todo.tail.all fun t => !t.onlyAtHand) = true ∧
    (st ≠ .ok → (todo.all fun t => !t.onlyAtHand) = true) ∧ (st = .ok → heldPlan held todo = true)

/-- No point of the list is one that is only ever at hand. -/
def Waits (ts : List Task) : Prop := (ts.all fun t => !t.onlyAtHand) = true

section
variable {held : Bool} {st : StatusCode} {t : Task} {ts : List Task}

/-- A plan that respects HELD on a free bus does on a held one. -/
theorem heldPlan_true (h : heldPlan false ts = true) : heldPlan true ts = true := by
  induction ts with
  | nil => rfl
  | cons t ts ih => cases t <;> simp_all [heldPlan]

theorem heldPlan_of_false (h : heldPlan false ts = true) : heldPlan held ts = true := by
  cases held with
  | false => exact h
  | true => exact heldPlan_true h

/-- A byte loop, whose head asks for a held bus, may put before what follows it any points `front` that only ask for
that. -/
theorem heldPlan_on {front : List Task} (h : (held && heldPlan held ts) = true)
    (hfront : held = true → heldPlan true ts = true → heldPlan true (front ++ ts) = true) :
    heldPlan held (front ++ ts) = true := by
  obtain ⟨rfl, hts⟩ := (Bool.and_eq_true _ _).mp h
  exact hfront rfl hts

/-- Where the point at hand is over, nothing that follows is only ever at hand. -/
theorem Plan.rest (h : Plan held st (t :: ts)) : Waits ts := h.1

theorem Plan.heldPlan (h : Plan held st (t :: ts)) (hst : st = .ok) : heldPlan held (t :: ts) = true := h.2.2 hst

/-- A point that is only ever at hand is met only while the status is Ok. -/
theorem Plan.st_ok (h : Plan held st (t :: ts)) (ht : t.onlyAtHand = true) : st = .ok := by
  by_contra hst
  have := h.2.1 hst
  simp [ht] at this

/-- The point at hand is over. -/
theorem Plan.of_rest (h : Waits ts) (hok : st = .ok → Machine.heldPlan held ts = true) : Plan held st ts := by
  refine ⟨?_, fun _ => h, hok⟩
  cases ts with
  | nil => rfl
  | cons t ts => exact (Bool.and_eq_true _ _ |>.mp h).2

theorem Plan.of_failed (h : Waits ts) (hst : st ≠ .ok) : Plan held st ts := .of_rest h fun e => absurd e hst

/-- While the status is Ok the point at hand may be any that the plan has. -/
theorem Plan.at_hand (h : Waits ts) (hst : st = .ok) (hok : Machine.heldPlan held (t :: ts) = true) :
    Plan held st (t :: ts) := ⟨h, fun e => absurd hst e, fun _ => hok⟩

end

/-! ## Polls -/

/-- What a poll of a `StartCond`, `Tx` or `Rx` may move: BusEnv, TWS and NPOLL. -/
def State.Polled (s u : State) : Prop :=
  ∃ env draws tws unset n, u = { s with
    env := env, draws := draws, tws := tws, unset := { s.unset with tws := unset }, run := { s.run with npoll := n } }

theorem State.answered_eq (s : State) :
    s.answered = { s with env := s.answered.env, draws := s.answered.draws } := by
  unfold State.answered
  split <;> rfl

/-- Everything a poll can come to. -/
theorem State.poll_polled (s : State) :
    ∃ u, s.Polled u ∧ (s.poll = (.pending, u) ∨ s.poll = (.expired, u) ∨ ∃ d, s.poll = (.done d, u)) := by
  have hcount : s.Polled s.answered.countPoll := by
    rw [s.answered_eq]
    exact ⟨_, _, s.tws, s.unset.tws, _, rfl⟩
  obtain ⟨st, d, -, h⟩ | ⟨-, h, -⟩ | ⟨-, h, -⟩ := s.poll_cases
  · refine ⟨_, ?_, .inr (.inr ⟨d, h⟩)⟩
    rw [s.answered_eq]
    exact ⟨_, _, st, false, s.run.npoll, rfl⟩
  · exact ⟨_, hcount, .inl h⟩
  · exact ⟨_, hcount, .inr (.inl h)⟩

/-! ## A point keeps the invariant -/

/-- A point that is over as an equation. -/
theorem Goes.taskStep {s u : State} {t : Task} {ts : List Task} (h : Goes 1 s u) (hb : s.busy = true)
    (htodo : s.run.todo = t :: ts) : s.taskStep t ts = u := by
  have h := h 0
  rwa [Nat.add_zero, State.runBlock_succ _ _ hb, State.micro_cons htodo] at h

theorem State.Inv.of_plan {s : State} (hheld : s.HeldPhase) (hfault : s.FaultCaused) (hmem : s.mem.Wf)
    (hfits : s.BufferFits) (hplan : Plan s.held s.run.st s.run.todo) : s.Inv :=
  ⟨hheld, hfault, hmem, hfits, fun _ => hplan⟩

/-- A bus that is held, in a phase that says so (10_state.md R38). -/
theorem State.heldPhase_of_held {s : State} (hheld : s.held = true) (hidle : s.phase ≠ .idle)
    (hstopped : s.phase ≠ .stopped) : s.HeldPhase := by
  simp [State.HeldPhase, hheld, hidle, hstopped]

theorem addrPhase_held (a : Byte) : addrPhase a ≠ .idle ∧ addrPhase a ≠ .stopped := by
  unfold addrPhase
  split <;> simp

/-- F_BUF_ACCESS ends the command, so nothing is still to be done. -/
theorem State.Inv.raise_bufAccess {s : State} (h : s.Inv) : (s.raise .bufAccess).Inv := by
  obtain ⟨hheld, hfault, hmem, -⟩ := h
  have hcause : s.firstCause .bufAccess ≠ .none := by
    unfold State.firstCause
    split
    · rename_i hf
      exact fun e => Bool.false_ne_true ((hfault.2 e).symm.trans hf)
    · decide
  rw [State.raise_eq, if_pos rfl]
  exact ⟨hheld, ⟨nofun, fun e => absurd e hcause⟩, hmem, nofun, nofun⟩

section
variable {s : State} {t : Task} {ts : List Task} (h : s.Inv) (hb : s.busy = true)
include h hb

theorem State.Inv.plan (htodo : s.run.todo = t :: ts) : Plan s.held s.run.st (t :: ts) := by
  obtain ⟨-, -, -, -, hplan⟩ := h
  exact htodo ▸ hplan hb

/-- A start, a write or a read, its wait and its end. -/
theorem State.Inv.taskStep_transfers (htodo : s.run.todo = t :: ts) (ht : t.transfers = true) :
    (s.taskStep t ts).Inv := by
  have hplan := h.plan hb htodo
  have hinv := h
  obtain ⟨hheld, hfault, hmem, hfits, -⟩ := h
  have hfailed {c : StatusCode} (hc : c ≠ .ok) : Plan s.held c ts := .of_failed hplan.rest hc
  obtain ⟨u, ⟨_, _, _, _, _, rfl⟩, hpoll⟩ := s.poll_polled
  cases t <;> simp only [Task.transfers, Bool.false_eq_true] at ht <;> simp only [State.taskStep]
  case start a =>
    unfold State.startStep State.whenOk
    split
    · rename_i hst
      refine .of_plan ?_ hfault hmem hfits (.at_hand hplan.rest hst (hplan.heldPlan hst))
      have hphase : s.claimBus.phase ≠ .idle ∧ s.claimBus.phase ≠ .stopped := by
        rw [State.claimBus_phase]; split <;> simp
      exact State.heldPhase_of_held rfl hphase.1 hphase.2
    · rename_i hst
      exact .of_plan hheld hfault hmem hfits <| hfailed hst
  case startPoll a =>
    have hst := hplan.st_ok rfl
    unfold State.startPollStep
    obtain hp | hp | ⟨d, hp⟩ := hpoll <;> rw [hp] <;> dsimp only
    · exact .of_plan hheld hfault hmem hfits <| htodo ▸ hplan
    · exact .of_plan hheld hfault hmem hfits <| hfailed (by nofun)
    · split
      · exact .of_plan hheld hfault hmem hfits <| .at_hand hplan.rest hst (hplan.heldPlan hst)
      · exact .of_plan hheld hfault hmem hfits <| hfailed (by nofun)
  case addrPoll | writePoll | readPoll =>
    have hst := hplan.st_ok rfl
    simp only [State.addrPollStep, State.writePollStep, State.readPollStep]
    obtain hp | hp | ⟨d, hp⟩ := hpoll <;> rw [hp] <;> dsimp only
    · exact .of_plan hheld hfault hmem hfits (htodo ▸ hplan)
    · exact .of_plan hheld hfault hmem hfits (hfailed (by nofun))
    · exact .of_plan hheld hfault hmem hfits (.at_hand hplan.rest hst (hplan.heldPlan hst))
  case write | read =>
    simp only [State.writeStep, State.readStep, State.whenOk]
    split
    · rename_i hst
      exact .of_plan hheld hfault hmem hfits (.at_hand hplan.rest hst (hplan.heldPlan hst))
    · rename_i hst
      exact .of_plan hheld hfault hmem hfits (hfailed hst)
  case addrDone a =>
    obtain ⟨hbus, hnext⟩ := (Bool.and_eq_true _ _).mp (hplan.heldPlan (hplan.st_ok rfl))
    unfold State.addrDoneStep
    split
    · refine .of_plan ?_ hfault hmem hfits (.of_rest hplan.rest fun _ => hbus.symm ▸ hnext)
      exact State.heldPhase_of_held hbus (addrPhase_held a).1 (addrPhase_held a).2
    · exact .of_plan hheld hfault hmem hfits <| hfailed (by nofun)
  case writeDone =>
    obtain ⟨hbus, hnext⟩ := (Bool.and_eq_true _ _).mp (hplan.heldPlan (hplan.st_ok rfl))
    unfold State.writeDoneStep
    split
    · exact .of_plan (State.heldPhase_of_held hbus nofun nofun) hfault hmem hfits
        (.of_rest hplan.rest fun _ => hnext)
    · exact .of_plan hheld hfault hmem hfits <| hfailed (by nofun)
  case readDone =>
    obtain ⟨hbus, hnext⟩ := (Bool.and_eq_true _ _).mp (hplan.heldPlan (hplan.st_ok rfl))
    exact .of_plan (State.heldPhase_of_held hbus nofun nofun) hfault hmem hfits
      (.of_rest hplan.rest fun _ => hnext)

/-- A point of a byte loop. -/
theorem State.Inv.taskStep_loops (htodo : s.run.todo = t :: ts) (ht : t.loops = true) : (s.taskStep t ts).Inv := by
  have hplan := h.plan hb htodo
  have hinv := h
  obtain ⟨hheld, hfault, hmem, hfits, -⟩ := h
  cases t <;> simp only [Task.loops, Bool.false_eq_true] at ht <;> simp only [State.taskStep]
  case sendLoop =>
    have hbus (hst : s.run.st = .ok) := (Bool.and_eq_true _ _).mp (hplan.heldPlan hst)
    unfold State.sendLoopStep
    split
    · rename_i hmore
      split
      · rename_i b u hu
        obtain ⟨-, hraced⟩ := State.memRead_cases hu
        obtain ⟨_, _, _, e, -⟩ := s.racedByte_eq s.run.addr
        cases hraced.trans e
        exact .of_plan hheld hfault hmem hfits
          (.of_rest hplan.rest fun _ =>
            heldPlan_on (front := [.write b, .sendNext]) (hplan.heldPlan hmore.1) (by simp [heldPlan]))
      · exact hinv.raise_bufAccess
    · exact .of_plan hheld hfault hmem hfits <| .of_rest hplan.rest fun hst => (hbus hst).2
  case sendNext => exact .of_plan hheld hfault hmem hfits <| .of_rest hplan.rest fun hst => hplan.heldPlan hst
  case recvLoop =>
    have hbus (hst : s.run.st = .ok) := (Bool.and_eq_true _ _).mp (hplan.heldPlan hst)
    unfold State.recvLoopStep
    split
    · rename_i hmore
      exact .of_plan hheld hfault hmem hfits
        (.of_rest hplan.rest fun _ => heldPlan_on (front := [.read s.run.ackNext, .store, .recvLoop])
          (hplan.heldPlan hmore.1) (by simp [heldPlan]))
    · exact .of_plan hheld hfault hmem hfits <| .of_rest hplan.rest fun hst => (hbus hst).2
  case store =>
    by_cases hst : s.run.st = .ok
    · cases hw : s.admitsWrite s.run.addr with
      | true =>
        have hwf := Memory.wf_write hmem (State.admitsWrite_lt hw) s.run.rx
        rw [← State.taskStep, (goes_store hb htodo hst hw).taskStep hb htodo]
        exact .of_plan hheld hfault hwf hfits (.of_rest hplan.rest fun _ => hplan.heldPlan hst)
      | false =>
        rw [State.storeStep_refused ts hst hw]
        exact hinv.raise_bufAccess
    · rw [State.storeStep, State.whenOk, if_neg hst]
      exact .of_plan hheld hfault hmem hfits (.of_failed hplan.rest hst)

/-- A stop, INIT's points, and the end of a command. -/
theorem State.Inv.taskStep_ends (htodo : s.run.todo = t :: ts) (ht : t.betweenStops = false) :
    (s.taskStep t ts).Inv := by
  have hplan := h.plan hb htodo
  obtain ⟨hheld, hfault, hmem, hfits, -⟩ := h
  cases t <;> simp only [Task.betweenStops, Task.transfers, Task.loops, Bool.or_true, Bool.true_eq_false,
    Bool.or_false] at ht <;> simp only [State.taskStep]
  case config =>
    have hst := hplan.st_ok rfl
    exact .of_plan hheld hfault hmem hfits (.of_rest hplan.rest fun _ => hplan.heldPlan hst)
  case configured | result =>
    exact .of_plan hheld hfault hmem hfits (.of_rest hplan.rest fun hst => hplan.heldPlan hst)
  case stop =>
    unfold State.stopStep
    split
    · exact .of_plan hheld hfault hmem hfits <| .of_rest hplan.rest fun hst => hplan.heldPlan hst
    · exact .of_plan hheld hfault hmem hfits
        (.of_rest hplan.rest fun hst => heldPlan_of_false (hplan.heldPlan hst))
  case stopPoll =>
    obtain ⟨_, ⟨_, _, _, _, rfl⟩, e | ⟨e, -⟩ | e⟩ := s.stopPollStep_cases ts <;> rw [e]
    · exact .of_plan hheld hfault hmem hfits <| htodo ▸ hplan
    · exact .of_plan hheld hfault hmem hfits <| .of_rest hplan.rest fun hst => heldPlan_of_false (hplan.heldPlan hst)
    · exact .of_plan ⟨fun _ => .inr rfl, fun _ => rfl⟩ hfault hmem hfits
        (.of_rest hplan.rest fun hst => hplan.heldPlan hst)
  case readEnd =>
    unfold State.readEndStep
    split <;> exact .of_plan hheld hfault hmem hfits <| .of_rest hplan.rest fun hst => hplan.heldPlan hst

end

theorem State.Inv.taskStep {s : State} {t : Task} {ts : List Task} (h : s.Inv) (hb : s.busy = true)
    (htodo : s.run.todo = t :: ts) : (s.taskStep t ts).Inv := by
  cases htransfers : t.transfers with
  | true => exact h.taskStep_transfers hb htodo htransfers
  | false =>
    cases hloops : t.loops with
    | true => exact h.taskStep_loops hb htodo hloops
    | false => exact h.taskStep_ends hb htodo (by rw [Task.betweenStops, htransfers, hloops]; rfl)

theorem State.Inv.micro {s : State} (hb : s.busy = true) (h : s.Inv) : s.micro.Inv := by
  cases htodo : s.run.todo with
  | nil =>
    obtain ⟨hheld, hfault, hmem, -⟩ := h
    rw [State.micro_nil htodo]
    exact ⟨hheld, hfault, hmem, nofun, nofun⟩
  | cons t ts =>
    rw [State.micro_cons htodo]
    exact h.taskStep hb htodo

theorem State.Inv.runBlock {s : State} (h : s.Inv) (n : Nat) : (s.runBlock n).Inv :=
  State.runBlock_keeps (P := State.Inv) (fun _ => .micro) n s h

/-! ## A step keeps the invariant -/

/-- The plan of a command that has just been latched. -/
theorem plan_commandBody {s : State} {i : Instr} (hi : refusedBy i s = none) :
    Plan s.held .ok (commandBody i) := by
  cases i with
  | init | start | stop | wrbuf | wrsingle | rdbuf =>
    exact ⟨rfl, fun e => absurd rfl e, fun _ => rfl⟩
  | write | read =>
    have hheld : s.held = true := by
      by_contra hfree
      simp only [refusedBy, hfree] at hi
      split at hi <;> simp at hi
    exact ⟨rfl, fun e => absurd rfl e, fun _ => by simp [commandBody, heldPlan, hheld]⟩

theorem State.Inv.accepted {i : Instr} {s t : State} (h : s.Inv) (ht : Accepted i s t) : t.Inv := by
  obtain ⟨hheld, hfault, hmem, hfits, hplan⟩ := h
  cases ht with
  | dropped => exact ⟨hheld, hfault, hmem, hfits, hplan⟩
  | refused d hc => exact ⟨hheld, ⟨nofun, fun e => absurd e hc⟩, hmem, hfits, hplan⟩
  | launched d hi hlb =>
    refine State.Inv.runBlock ?_ _
    exact .of_plan hheld hfault hmem (fun _ => buffer_fits_of_accepted hi hlb) (plan_commandBody (s := s) hi)

/-- Settles O52: an idle step by the block's points, a command by its plan at acceptance, a host write to the buffer by
the canonical form's being kept. -/
theorem stepKeepsInv : Obligations.StepKeepsInv := by
  intro s t h hstep
  have hinv := h
  obtain ⟨hheld, hfault, hmem, hfits, hplan⟩ := h
  cases step_stepped hstep with
  | runs n host data => exact State.Inv.runBlock (s := { s with host := host, hostData := data }) hinv n
  | looks | setsBufptr => exact hinv
  | @issues _ rest _ _ hh ht => exact State.Inv.accepted (s := { s with host := rest }) hinv ht
  | stores rest olds a v => exact ⟨hheld, hfault, Memory.wf_write hmem a.isLt v, hfits, hplan⟩
  | resets rest =>
    obtain ⟨hheld', hfault', -, hfits', hplan'⟩ := resetMeetsInv
    exact ⟨hheld', hfault', hmem, hfits', hplan'⟩

end Sys2Proof.Machine
end

section
/-! SUPPORT. Frames: which parts of the state each point of a command can write, and so which parts a whole command
leaves as they were, whatever BusEnv answers and however far it has got. -/

namespace Sys2Proof.Machine

/-! ## The parts of the state -/

/-- The parts of the state that the points of a command write, but for the latched command itself, BUSY and the
fault. -/
inductive Part where
  /-- DIV, PS and CONFIGURED (10_state.md R22, R23, R34). -/
  | clock
  /-- HELD and STO_PEND (R24, R35). -/
  | bus
  /-- PHASE, BusEnv and the record of bus operations (R25; 41_phase_primitives.md R120). -/
  | traffic
  /-- TWS (R28). -/
  | tws
  /-- RESULT (R26). -/
  | result
  /-- RDATA (R30). -/
  | rdata
  /-- Buffer memory (20_memory.md R51). -/
  | mem
  /-- The choices of a race (log 19). -/
  | picks
  /-- The bytes overwritten while the command runs (log 19). -/
  | olds
deriving DecidableEq

/-- One part of the state alone, the rest as after reset. -/
def State.part (p : Part) (s : State) : State :=
  match p with
  | .clock => { State.reset with
      div := s.div, ps := s.ps, configured := s.configured
      unset := { State.reset.unset with div := s.unset.div, ps := s.unset.ps } }
  | .bus => { State.reset with held := s.held, stoPend := s.stoPend }
  | .traffic => { State.reset with phase := s.phase, env := s.env, trace := s.trace, draws := s.draws }
  | .tws => { State.reset with tws := s.tws, unset := { State.reset.unset with tws := s.unset.tws } }
  | .result => { State.reset with result := s.result, unset := { State.reset.unset with result := s.unset.result } }
  | .rdata => { State.reset with rdata := s.rdata, unset := { State.reset.unset with rdata := s.unset.rdata } }
  | .mem => { State.reset with mem := s.mem }
  | .picks => { State.reset with picks := s.picks }
  | .olds => { State.reset with run := { Run.reset with olds := s.run.olds } }

/-- The parts that the point writes, or those that the points it leads to write. -/
def Task.parts : Task → List Part
  | .config _ | .configured => [.clock]
  | .start _ | .startPoll _ | .addrPoll _ | .addrDone _ => [.bus, .traffic, .tws]
  | .stop | .stopPoll => [.bus, .traffic]
  | .write _ | .writePoll _ | .writeDone | .read _ | .readPoll _ | .readDone => [.traffic, .tws]
  | .readEnd => [.rdata, .result]
  | .sendLoop | .sendNext => [.traffic, .tws, .picks]
  | .recvLoop | .store => [.traffic, .tws, .mem, .olds]
  | .result => [.result]

/-! ### What each operation leaves of a part -/

section
variable {p : Part} {s : State}

@[simp] theorem State.part_setTodo (ts : List Task) : (s.setTodo ts).part p = s.part p := by cases p <;> rfl

@[simp] theorem State.part_setStatus (c : StatusCode) : (s.setStatus c).part p = s.part p := by cases p <;> rfl

@[simp] theorem State.part_fail (c : StatusCode) (ts : List Task) : (s.fail c ts).part p = s.part p := by
  cases p <;> rfl

@[simp] theorem State.part_setRx (v : Byte) : (s.setRx v).part p = s.part p := by cases p <;> rfl

@[simp] theorem State.part_bumpIdx : s.bumpIdx.part p = s.part p := by cases p <;> rfl

@[simp] theorem State.part_idle : ({ s with busy := false } : State).part p = s.part p := by cases p <;> rfl

@[simp] theorem State.part_raise (c : Cause) : (s.raise c).part p = s.part p := by
  rw [State.raise_eq]
  split <;> cases p <;> rfl

theorem State.part_setClock {d : BitVec 8} {q : BitVec 2} (h : p ≠ .clock) :
    (s.setClock d q).part p = s.part p := by cases p <;> simp_all [State.part]

theorem State.part_markConfigured (h : p ≠ .clock) : s.markConfigured.part p = s.part p := by
  cases p <;> simp_all [State.part]

theorem State.part_setResult {c : StatusCode} (h : p ≠ .result) : (s.setResult c).part p = s.part p := by
  cases p <;> simp_all [State.part]

theorem State.part_setRdata {v : Byte} (h : p ≠ .rdata) : (s.setRdata v).part p = s.part p := by
  cases p <;> simp_all [State.part]

theorem State.part_enterPhase {q : Phase} (h : p ≠ .traffic) : (s.enterPhase q).part p = s.part p := by
  cases p <;> simp_all [State.part]

theorem State.part_claimBus (h : p ≠ .bus) (h' : p ≠ .traffic) : s.claimBus.part p = s.part p := by
  cases p <;> simp_all [State.part]

theorem State.part_releaseBus (h : p ≠ .bus) (h' : p ≠ .traffic) : s.releaseBus.part p = s.part p := by
  cases p <;> simp_all [State.part]

/-- Only a stop condition sets STO_PEND (41_phase_primitives.md R121). -/
theorem State.part_issue {op : BusOp} (h : op = .stopCond → p ≠ .bus) (h' : p ≠ .traffic) :
    (s.issue op).part p = s.part p := by
  cases p <;> simp_all [State.part]

theorem State.Polled.part {u : State} (hu : s.Polled u) (h : p ≠ .traffic) (h' : p ≠ .tws) :
    u.part p = s.part p := by
  obtain ⟨_, _, _, _, _, rfl⟩ := hu
  cases p <;> simp_all [State.part]

theorem State.StopPolled.part {u : State} (hu : s.StopPolled u) (h : p ≠ .bus) (h' : p ≠ .traffic) :
    u.part p = s.part p := by
  obtain ⟨_, _, _, _, rfl⟩ := hu
  cases p <;> simp_all [State.part]

theorem State.part_picked (h : p ≠ .traffic) (h' : p ≠ .picks) : s.picked.part p = s.part p := by
  rw [State.picked_eq]
  cases p <;> simp_all [State.part]

theorem State.part_noteOld {a : Nat} (h : p ≠ .olds) : (s.noteOld a).part p = s.part p := by
  cases p <;> simp_all [State.part]

theorem State.part_memWrite {m : Memory} (h : p ≠ .mem) : ({ s with mem := m } : State).part p = s.part p := by
  cases p <;> simp_all [State.part]

end

/-! ## Points that spare a part -/

/-- After the point `t`, with `ts` to follow it, `u` has the part of `s`, and the points before `ts` write no more
than `t`. -/
def State.Spares (p : Part) (t : Task) (ts : List Task) (s u : State) : Prop :=
  u.part p = s.part p ∧ ∀ f ∈ u.run.todo, f ∈ ts ∨ f.parts ⊆ t.parts

section
variable {p : Part} {s u : State} {t : Task} {ts : List Task}

/-- Points `front` that write no more than the point at hand have taken its place. -/
theorem State.Spares.of_front {front : List Task} (hpart : u.part p = s.part p)
    (hfront : ∀ f ∈ front, f.parts ⊆ t.parts) : s.Spares p t ts (u.setTodo (front ++ ts)) :=
  ⟨by rw [State.part_setTodo, hpart],
    List.forall_mem_append.2 ⟨fun f hf => .inr (hfront f hf), fun _ hf => .inl hf⟩⟩

theorem State.Spares.of_rest (hpart : u.part p = s.part p) : s.Spares p t ts (u.setTodo ts) :=
  .of_front (front := []) hpart nofun

/-- The point is still at hand. -/
theorem State.Spares.of_wait (hpart : u.part p = s.part p) (htodo : u.run.todo = t :: ts) : s.Spares p t ts u :=
  ⟨hpart, htodo ▸ List.forall_mem_cons.2 ⟨.inr (List.Subset.refl _), fun _ hf => .inl hf⟩⟩

/-- A point of a start, a write or a read. -/
theorem State.taskStep_spares_transfers (ht : t.transfers = true) (hp : p ∉ t.parts)
    (htodo : s.run.todo = t :: ts) : s.Spares p t ts (s.taskStep t ts) := by
  obtain ⟨u, hu, hpoll⟩ := s.poll_polled
  have hskip : s.Spares p t ts (s.setTodo ts) := .of_rest rfl
  have hfail {v : State} {c : StatusCode} (hv : v.part p = s.part p) : s.Spares p t ts (v.fail c ts) :=
    .of_rest (u := v.setStatus c) (by simp [hv])
  have hwait (hpart : u.part p = s.part p) : s.Spares p t ts u := by
    refine .of_wait hpart ?_
    obtain ⟨_, _, _, _, _, rfl⟩ := hu
    exact htodo
  cases t <;> simp only [Task.transfers, Bool.false_eq_true] at ht <;>
    simp only [Task.parts, List.mem_cons, List.not_mem_nil, or_false, not_or] at hp <;> simp only [State.taskStep]
  case start a =>
    obtain ⟨hbus, htraffic, htws⟩ := hp
    have hclaim : (s.claimBus.issue .startCond).part p = s.part p := by
      rw [State.part_issue (by simp) htraffic, State.part_claimBus hbus htraffic]
    unfold State.startStep State.whenOk
    split
    · exact .of_front (front := [.startPoll a]) hclaim (by simp [Task.parts])
    · exact hskip
  case startPoll a =>
    obtain ⟨hbus, htraffic, htws⟩ := hp
    have hpart := hu.part htraffic htws
    unfold State.startPollStep
    obtain e | e | ⟨d, e⟩ := hpoll <;> rw [e] <;> dsimp only
    · exact hwait hpart
    · exact hfail hpart
    · split
      · exact .of_front (front := [.addrPoll a]) (by rw [State.part_issue (by simp) htraffic, hpart])
          (by simp [Task.parts])
      · exact hfail hpart
  case addrPoll a =>
    obtain ⟨hbus, htraffic, htws⟩ := hp
    have hpart := hu.part htraffic htws
    unfold State.addrPollStep
    obtain e | e | ⟨d, e⟩ := hpoll <;> rw [e] <;> dsimp only
    · exact hwait hpart
    · exact hfail hpart
    · exact .of_front (front := [.addrDone a]) hpart (by simp [Task.parts])
  case addrDone a =>
    obtain ⟨hbus, htraffic, htws⟩ := hp
    unfold State.addrDoneStep
    split
    · exact .of_rest (State.part_enterPhase htraffic)
    · exact hfail rfl
  case write b =>
    obtain ⟨htraffic, htws⟩ := hp
    unfold State.writeStep State.whenOk
    split
    · exact .of_front (front := [.writePoll b]) (State.part_issue (by simp) htraffic) (by simp [Task.parts])
    · exact hskip
  case writePoll b =>
    obtain ⟨htraffic, htws⟩ := hp
    have hpart := hu.part htraffic htws
    unfold State.writePollStep
    obtain e | e | ⟨d, e⟩ := hpoll <;> rw [e] <;> dsimp only
    · exact hwait hpart
    · exact hfail hpart
    · exact .of_front (front := [.writeDone]) hpart (by simp [Task.parts])
  case writeDone =>
    obtain ⟨htraffic, htws⟩ := hp
    unfold State.writeDoneStep
    split
    · exact .of_rest (State.part_enterPhase htraffic)
    · exact hfail rfl
  case read k =>
    obtain ⟨htraffic, htws⟩ := hp
    unfold State.readStep State.whenOk
    split
    · exact .of_front (front := [.readPoll k]) (State.part_issue (by simp) htraffic) (by simp [Task.parts])
    · exact hskip
  case readPoll k =>
    obtain ⟨htraffic, htws⟩ := hp
    have hpart := hu.part htraffic htws
    unfold State.readPollStep
    obtain e | e | ⟨d, e⟩ := hpoll <;> rw [e] <;> dsimp only
    · exact hwait hpart
    · exact hfail hpart
    · exact .of_front (front := [.readDone]) (by simp [hpart]) (by simp [Task.parts])
  case readDone =>
    obtain ⟨htraffic, htws⟩ := hp
    exact .of_rest (State.part_enterPhase htraffic)

/-- A point of a byte loop. -/
theorem State.taskStep_spares_loops (ht : t.loops = true) (hp : p ∉ t.parts) :
    s.Spares p t ts (s.taskStep t ts) := by
  have hhalt : s.Spares p t ts (s.raise .bufAccess) := ⟨State.part_raise _, nofun⟩
  have hskip : s.Spares p t ts (s.setTodo ts) := .of_rest rfl
  cases t <;> simp only [Task.loops, Bool.false_eq_true] at ht <;>
    simp only [Task.parts, List.mem_cons, List.not_mem_nil, or_false, not_or] at hp <;> simp only [State.taskStep]
  case sendLoop =>
    obtain ⟨htraffic, htws, hpicks⟩ := hp
    unfold State.sendLoopStep
    split
    · split
      · rename_i b u hu
        obtain ⟨-, hr⟩ := State.memRead_cases hu
        have hpart : u.part p = s.part p := by
          obtain e | e := (s.racedByte_cases s.run.addr).2 <;> rw [← hr] at e <;> dsimp only at e <;> rw [e]
          exact State.part_picked htraffic hpicks
        exact .of_front (front := [.write b, .sendNext]) hpart (by simp [Task.parts])
      · exact hhalt
    · exact hskip
  case sendNext =>
    exact .of_front (front := [.sendLoop]) State.part_bumpIdx (by simp [Task.parts])
  case recvLoop =>
    unfold State.recvLoopStep
    split
    · exact .of_front (front := [.read _, .store, .recvLoop]) rfl (by simp [Task.parts])
    · exact hskip
  case store =>
    obtain ⟨-, -, hmem, holds⟩ := hp
    unfold State.storeStep State.whenOk
    split
    · split
      · rename_i u hu
        obtain ⟨-, -, rfl⟩ := State.memWrite_cases hu
        have hpart : (({ s.noteOld s.run.addr with
            mem := (s.noteOld s.run.addr).mem.write s.run.addr s.run.rx } : State)).part p = s.part p :=
          (State.part_memWrite hmem).trans (State.part_noteOld holds)
        dsimp only
        split
        · exact .of_rest (by rw [State.part_bumpIdx, State.part_setStatus, hpart])
        · exact .of_rest (by rw [State.part_bumpIdx, hpart])
      · exact hhalt
    · exact hskip

/-- A stop, INIT's points, and the end of a command. -/
theorem State.taskStep_spares_ends (ht : t.betweenStops = false) (hp : p ∉ t.parts)
    (htodo : s.run.todo = t :: ts) : s.Spares p t ts (s.taskStep t ts) := by
  cases t <;> simp only [Task.betweenStops, Task.transfers, Task.loops, Bool.or_true, Bool.true_eq_false,
      Bool.or_false] at ht <;>
    simp only [Task.parts, List.mem_cons, List.not_mem_nil, or_false, not_or] at hp <;> simp only [State.taskStep]
  case config =>
    exact .of_rest (by rw [State.part_setStatus, State.part_setClock hp])
  case configured => exact .of_rest (State.part_markConfigured hp)
  case result => exact .of_rest (State.part_setResult hp)
  case readEnd =>
    refine .of_rest ?_
    split
    · exact State.part_setRdata hp.1
    · exact State.part_setResult hp.2
  case stop =>
    unfold State.stopStep
    split
    · exact .of_front (front := [.stopPoll]) (State.part_issue (fun _ => hp.1) hp.2) (by simp [Task.parts])
    · exact .of_rest rfl
  case stopPoll =>
    obtain ⟨u, hu, e | ⟨e, -⟩ | e⟩ := s.stopPollStep_cases ts <;> rw [e] <;> have hpart := hu.part hp.1 hp.2
    · refine .of_wait hpart ?_
      obtain ⟨_, _, _, _, rfl⟩ := hu
      exact htodo
    · exact .of_rest hpart
    · exact .of_rest ((State.part_releaseBus hp.1 hp.2).trans hpart)

theorem State.taskStep_spares (hp : p ∉ t.parts) (htodo : s.run.todo = t :: ts) :
    s.Spares p t ts (s.taskStep t ts) := by
  cases htransfers : t.transfers with
  | true => exact State.taskStep_spares_transfers htransfers hp htodo
  | false =>
    cases hloops : t.loops with
    | true => exact State.taskStep_spares_loops hloops hp
    | false => exact State.taskStep_spares_ends (by rw [Task.betweenStops, htransfers, hloops]; rfl) hp htodo

/-- While no point to come writes a part, the part stays, and no point to come will write it. -/
theorem State.micro_part (h : ∀ f ∈ s.run.todo, p ∉ f.parts) :
    s.micro.part p = s.part p ∧ ∀ f ∈ s.micro.run.todo, p ∉ f.parts := by
  cases htodo : s.run.todo with
  | nil => rw [State.micro_nil htodo]; exact ⟨State.part_idle, h⟩
  | cons t ts =>
    rw [State.micro_cons htodo]
    obtain ⟨ht, hts⟩ := List.forall_mem_cons.1 (htodo ▸ h)
    obtain ⟨hpart, hnext⟩ := State.taskStep_spares ht htodo
    exact ⟨hpart, fun f hf => (hnext f hf).elim (hts f) fun hsub hpf => ht (hsub hpf)⟩

/-- A part that no point to come writes stays as it is, however far the block runs. -/
theorem State.runBlock_part (h : ∀ f ∈ s.run.todo, p ∉ f.parts) (n : Nat) : (s.runBlock n).part p = s.part p :=
  (State.runBlock_keeps (P := fun u => u.part p = s.part p ∧ ∀ f ∈ u.run.todo, p ∉ f.parts)
    (fun _ _ k => let ⟨hpart, hnext⟩ := State.micro_part k.2
      ⟨hpart.trans k.1, hnext⟩) n s ⟨rfl, h⟩).1

end

/-! ## What a whole command leaves as it was -/

/-- `t` is `s` but for the parts `ps`, the latched command, BUSY and the fault. -/
def State.Framed (ps : List Part) (s t : State) : Prop := SameSurroundings s t ∧ ∀ p, p ∉ ps → t.part p = s.part p

/-- What latching a command changes of the parts. -/
theorem State.part_latched {p : Part} {s : State} {b : Bool} {d : Nat} {r : Run} (htraffic : p ≠ .traffic)
    (holds : p ≠ .olds) : ({ s with busy := b, draws := d, run := r } : State).part p = s.part p := by
  cases p <;> simp_all [State.part]

theorem State.part_latch {p : Part} {s : State} {i : Instr} {body : List Task} (holds : p ≠ .olds) :
    (s.latch i body).part p = s.part p := by
  cases p <;> simp_all [State.part]

/-- A command changes at most the parts that the points of its body write, the draws that BUFPTR may take, and the
bytes noted as overwritten. -/
theorem exec_framed {i : Instr} {ps : List Part} {s t : State} (hps : ∀ f ∈ commandBody i, f.parts ⊆ ps)
    (h : exec i s = .next t) : s.Framed (.traffic :: .olds :: ps) t := by
  cases exec_accepted h with
  | dropped => exact ⟨.refl s, fun _ _ => rfl⟩
  | @refused c d =>
    refine ⟨⟨rfl, rfl, rfl, rfl, rfl, rfl⟩, fun p hp => ?_⟩
    simp only [List.mem_cons, not_or] at hp
    exact State.part_latched (r := s.run) (b := s.busy) (d := d) hp.1 hp.2.1
  | launched d =>
    have hlatched {r : Run} : SameSurroundings s { s with draws := d, busy := true, run := r } :=
      ⟨rfl, rfl, rfl, rfl, rfl, rfl⟩
    refine ⟨hlatched.trans (State.runBlock_surroundings _ _), fun p hp => ?_⟩
    simp only [List.mem_cons, not_or] at hp
    exact (State.runBlock_part (fun f hf hpf => hp.2.2 (hps f hf hpf)) _).trans (State.part_latched hp.1 hp.2.1)

/-- The fields of a state are its parts, its surroundings, the latched command, BUSY and the fault. -/
theorem State.ext_parts {t u : State} (hsame : SameSurroundings u t) (hparts : ∀ p, t.part p = u.part p)
    (hbusy : t.busy = u.busy) (hfault : t.fault = u.fault) (hfcause : t.fcause = u.fcause) (hrun : t.run = u.run) :
    t = u := by
  obtain ⟨hbufptr, hunset, hplatform, hhost, hdata, hpace⟩ := hsame
  have hclock := hparts .clock
  have hbus := hparts .bus
  have htraffic := hparts .traffic
  have htws := hparts .tws
  have hresult := hparts .result
  have hrdata := hparts .rdata
  have hmem := hparts .mem
  have hpicks := hparts .picks
  rcases t with ⟨_, _, _, _, _, _, _, _, _, _, _, _, _, _, _, _, _, _, _, ⟨⟩, _, _, _, _⟩
  rcases u with ⟨_, _, _, _, _, _, _, _, _, _, _, _, _, _, _, _, _, _, _, ⟨⟩, _, _, _, _⟩
  simp_all [State.part]

/-- A framed state is the one with what is framed of `s` and the rest of `t`. -/
theorem State.Framed.eq_of {ps : List Part} {s t u : State} (h : s.Framed ps t) (hsame : SameSurroundings u s)
    (hin : ∀ p ∈ ps, t.part p = u.part p) (hout : ∀ p, p ∉ ps → s.part p = u.part p) (hbusy : t.busy = u.busy)
    (hfault : t.fault = u.fault) (hfcause : t.fcause = u.fcause) (hrun : t.run = u.run) : t = u := by
  refine State.ext_parts (hsame.trans h.1) (fun p => ?_) hbusy hfault hfcause hrun
  by_cases hp : p ∈ ps
  · exact hin p hp
  · exact (h.2 p hp).trans (hout p hp)

/-- What INIT comes to, BUFPTR not read: it is dropped, it is refused, or it is latched and run. -/
theorem exec_init_cases {s t : State} {rate : BitVec 8} (h : exec (.init rate) s = .next t) :
    t = s ∨ (∃ c, t = s.raise c) ∨ t = s.launch (.init rate) (commandBody (.init rate)) := by
  cases h
  unfold State.screen
  split_ifs
  · exact .inl rfl
  · exact .inr (.inl ⟨_, rfl⟩)
  · exact .inr (.inl ⟨_, rfl⟩)
  · exact .inr (.inr rfl)

/-- Settles O46. -/
theorem initFrame : Obligations.InitFrame := by
  intro s t rate h
  have hframe : s.Framed [.clock, .result, .olds] t := by
    obtain rfl | ⟨c, rfl⟩ | rfl := exec_init_cases h
    · exact ⟨.refl _, fun _ _ => rfl⟩
    · exact ⟨s.raise_surroundings c, fun _ _ => State.part_raise c⟩
    · have hlatched : SameSurroundings s (s.latch (.init rate) (commandBody (.init rate))) :=
        ⟨rfl, rfl, rfl, rfl, rfl, rfl⟩
      refine ⟨hlatched.trans (State.runBlock_surroundings _ _), fun p hp => ?_⟩
      simp only [List.mem_cons, List.not_mem_nil, or_false, not_or] at hp
      exact (State.runBlock_part (by simp [commandBody, Task.parts, hp]) _).trans (State.part_latch hp.2.2)
  refine hframe.eq_of ⟨rfl, rfl, rfl, rfl, rfl, rfl⟩ (by simp [State.part]) (fun p hp => ?_) rfl rfl rfl rfl
  cases p <;> simp_all [State.part]

/-- Settles O47. -/
theorem startFrame : Obligations.StartFrame := by
  intro s t a h
  have hframe := exec_framed (ps := [.bus, .traffic, .tws, .result]) (by simp [commandBody, Task.parts]) h
  refine hframe.eq_of ⟨rfl, rfl, rfl, rfl, rfl, rfl⟩ (by simp [State.part]) (fun p hp => ?_) rfl rfl rfl rfl
  cases p <;> simp_all [State.part]

/-- Settles O48. -/
theorem stopFrame : Obligations.StopFrame := by
  intro s t h
  have hframe := exec_framed (ps := [.bus, .traffic]) (by simp [commandBody, Task.parts]) h
  refine hframe.eq_of ⟨rfl, rfl, rfl, rfl, rfl, rfl⟩ (by simp [State.part]) (fun p hp => ?_) rfl rfl rfl rfl
  cases p <;> simp_all [State.part]

/-- Settles O49. -/
theorem writeReadFrame : Obligations.WriteReadFrame := by
  refine ⟨fun s t b h => ?_, fun s t ack h => ?_⟩
  · have hframe := exec_framed (ps := [.traffic, .tws, .result]) (by simp [commandBody, Task.parts]) h
    refine hframe.eq_of ⟨rfl, rfl, rfl, rfl, rfl, rfl⟩ (by simp [State.part]) (fun p hp => ?_) rfl rfl rfl rfl
    cases p <;> simp_all [State.part]
  · have hframe := exec_framed (ps := [.traffic, .tws, .rdata, .result]) (by simp [commandBody, Task.parts]) h
    refine hframe.eq_of ⟨rfl, rfl, rfl, rfl, rfl, rfl⟩ (by simp [State.part]) (fun p hp => ?_) rfl rfl rfl rfl
    cases p <;> simp_all [State.part]

/-! ## WRBUF makes no choice of a race -/

/-- While no byte was overwritten, a point of a command that stores nothing uses up no choice. -/
theorem State.taskStep_picks {s : State} {t : Task} {ts : List Task} (holds : s.run.olds = [])
    (htodo : s.run.todo = t :: ts) : (s.taskStep t ts).picks = s.picks := by
  by_cases hp : Part.picks ∈ t.parts
  · cases t <;> simp [Task.parts] at hp <;> rw [State.taskStep]
    case sendLoop =>
      by_cases hmore : s.run.st = .ok ∧ s.run.idx < s.run.len
      · cases hr : s.admitsRead s.run.addr with
        | true => rw [State.sendLoopStep_admitted ts hmore.1 hmore.2 hr holds, State.setTodo_picks]
        | false => rw [State.sendLoopStep_refused ts hmore.1 hmore.2 hr, State.raise_eq]; rfl
      · rw [State.sendLoopStep, if_neg hmore, State.setTodo_picks]
    case sendNext => rfl
  · have hpart := congrArg State.picks (State.taskStep_spares hp htodo).1
    exact hpart

/-- A command that stores nothing uses up no choice of a race: no byte of its buffer is overwritten. -/
theorem State.runBlock_picks {s : State} (holds : s.run.olds = []) (htodo : ∀ f ∈ s.run.todo, .olds ∉ f.parts)
    (n : Nat) : (s.runBlock n).picks = s.picks := by
  refine (State.runBlock_keeps (P := fun u => u.picks = s.picks ∧ u.run.olds = [] ∧
    ∀ f ∈ u.run.todo, .olds ∉ f.parts) (fun u _ hu => ?_) n s ⟨rfl, holds, htodo⟩).1
  obtain ⟨hpicks, holds, htodo⟩ := hu
  obtain ⟨hpart, hnext⟩ := State.micro_part htodo
  refine ⟨?_, (congrArg (fun v => v.run.olds) hpart).trans holds, hnext⟩
  cases h : u.run.todo with
  | nil => rw [State.micro_nil h]; exact hpicks
  | cons t ts => rw [State.micro_cons h, State.taskStep_picks holds h, hpicks]

/-- WRBUF and WRSINGLE change neither RDATA, the clock, memory nor the choices of a race. -/
theorem exec_buffered_write_framed {s t : State} {i : Instr} {dev : BitVec 7} {sub arg : Byte}
    (hi : i = .wrbuf dev sub arg ∨ i = .wrsingle dev sub arg) (h : exec i s = .next t) :
    s.Framed [.bus, .traffic, .tws, .result, .olds] t := by
  have hbody : ∀ f ∈ commandBody i, f.parts ⊆ [.bus, .traffic, .tws, .result, .picks] := by
    obtain rfl | rfl := hi <;> simp [commandBody, Task.parts]
  obtain ⟨hsame, hparts⟩ := exec_framed hbody h
  refine ⟨hsame, fun p hp => ?_⟩
  by_cases hpicks : p = .picks
  · subst hpicks
    suffices e : t.picks = s.picks from congrArg (fun l => ({ State.reset with picks := l } : State)) e
    cases exec_accepted h with
    | dropped | refused => rfl
    | launched d =>
      refine (State.runBlock_picks ?_ fun f hf holds => ?_) _
      · rfl
      · have hout := hbody f hf holds
        simp at hout
  · exact hparts p (by simp_all)

/-- Settles O50. -/
theorem bufferedWriteFrame : Obligations.BufferedWriteFrame := by
  intro s t i dev sub arg hi h
  refine (exec_buffered_write_framed hi h).eq_of ⟨rfl, rfl, rfl, rfl, rfl, rfl⟩ (by simp [State.part])
    (fun p hp => ?_) rfl rfl rfl rfl
  cases p <;> simp_all [State.part]

/-! ## The bytes outside RDBUF's buffer -/

/-- `m'` is `m` outside the `len` bytes from `a`. -/
def Memory.SameOutside (a len : Nat) (m m' : Memory) : Prop :=
  m'.Wf ∧ ∀ b, (b < a ∨ a + len ≤ b) → m'.read b = m.read b

/-- A store inside the bytes. -/
theorem Memory.SameOutside.write {a len k : Nat} {m m' : Memory} (h : m.SameOutside a len m') (hk : k < len)
    (hfits : a + len ≤ Config.bufSpace) (v : Byte) : m.SameOutside a len (m'.write (a + k) v) := by
  obtain ⟨hwf, hsame⟩ := h
  refine ⟨Memory.wf_write hwf (by omega) v, fun b hb => ?_⟩
  rw [Memory.read_write hwf, if_neg (by omega), hsame b hb]

/-- A running RDBUF of `len` bytes at `a`: plain points, and then the loop, its store or the end; what is stored lies
in the buffer. -/
inductive State.Receives (a len : Nat) (m : Memory) (u : State) : Prop
  | ended (hbusy : u.busy = false) (hmem : m.SameOutside a len u.mem)
  | running (x : State) (c : Setting) (hu : u = x.within c) (hplain : ∀ f ∈ x.run.todo, f.plain = true)
      (hmem : m.SameOutside a len c.mem) (hbase : c.lbuf.toNat = a) (hlen : cmdLen c.cmd = len)
      (hafter : c.after = [] ∨ c.after = .recvLoop :: closeBus ∨
        c.after = .store :: .recvLoop :: closeBus ∧ c.idx < len)

section
variable {a len : Nat} {m : Memory}

theorem State.Receives.mem_same {u : State} (h : u.Receives a len m) : m.SameOutside a len u.mem := by
  cases h with
  | ended _ hmem => exact hmem
  | running x c hu _ hmem => rw [hu]; exact hmem

section
variable {x : State} {c : Setting} (hmem : m.SameOutside a len c.mem)
  (hbase : c.lbuf.toNat = a) (hlen : cmdLen c.cmd = len)
include hmem hbase hlen

/-- The head of the loop. -/
theorem State.Receives.recvLoop :
    ((x.within c).taskStep .recvLoop closeBus).Receives a len m := by
  rw [State.taskStep, State.recvLoopStep]
  split
  · rename_i hmore
    refine .running (x.setTodo [.read (x.within c).run.ackNext])
      { c with after := .store :: .recvLoop :: closeBus } rfl (by simp [Task.plain, Task.transfers]) hmem hbase hlen
      (.inr (.inr ⟨rfl, ?_⟩))
    rw [← hlen]
    exact hmore.2
  · refine .running (x.setTodo closeBus) { c with after := [] } rfl (by simp [closeBus, Task.plain]) hmem hbase hlen
      (.inl rfl)

/-- The store of a byte. -/
theorem State.Receives.store (hx : x.run.todo = []) (hfits : a + len ≤ Config.bufSpace)
    (hafter : c.after = .store :: .recvLoop :: closeBus)
    (hidx : c.idx < len) : ((x.within c).taskStep .store (.recvLoop :: closeBus)).Receives a len m := by
  have htodo : (x.within c).run.todo = .store :: .recvLoop :: closeBus := (State.todo_within hx).trans hafter
  have hnext (st : StatusCode) (v : Memory) (o : List Host.Cell) (i : Nat) (hv : m.SameOutside a len v) :
      (({ x with run := { x.run with st := st, todo := [] } } : State).within
        { c with mem := v, olds := o, idx := i, after := .recvLoop :: closeBus }).Receives a len m :=
    .running _ _ rfl nofun hv hbase hlen (.inr (.inl rfl))
  by_cases hst : (x.within c).run.st = .ok
  · cases hw : (x.within c).admitsWrite (x.within c).run.addr with
    | true =>
      rw [(goes_store rfl htodo hst hw).taskStep rfl htodo]
      refine hnext _ _ _ _ ?_
      rw [← hbase] at hmem hfits ⊢
      exact hmem.write hidx hfits _
    | false =>
      rw [State.taskStep, State.storeStep_refused _ hst hw]
      exact .ended rfl (by rw [State.raise_mem]; exact hmem)
  · rw [State.taskStep, State.storeStep, State.whenOk, if_neg hst]
    exact hnext x.run.st c.mem c.olds c.idx hmem

end

theorem State.Receives.micro (hfits : a + len ≤ Config.bufSpace) {u : State} (hb : u.busy = true)
    (h : u.Receives a len m) : u.micro.Receives a len m := by
  cases h with
  | ended hidle => cases hb.symm.trans hidle
  | running x c hu hplain hmem hbase hlen hafter =>
    subst hu
    cases hx : x.run.todo with
    | cons t ts =>
      have htodo : (x.within c).run.todo = t :: (ts ++ c.after) := by rw [State.within, hx]; rfl
      rw [State.micro_cons htodo, State.within_taskStep c (hplain t (by simp [hx]))]
      exact .running _ c rfl (State.taskStep_plain hplain hx) hmem hbase hlen hafter
    | nil =>
      have htodo := State.todo_within (c := c) hx
      obtain hafter | hafter | ⟨hafter, hidx⟩ := hafter
      · rw [State.micro_nil (htodo.trans hafter)]
        exact .ended rfl hmem
      · rw [State.micro_cons (htodo.trans hafter)]
        exact .recvLoop hmem hbase hlen
      · rw [State.micro_cons (htodo.trans hafter)]
        exact .store hmem hbase hlen hx hfits hafter hidx

end

/-- Settles O51: memory by the loop's storing only at IDX below `len`. -/
theorem rdbufFrame : Obligations.RdbufFrame := by
  intro s t dev sub len hwf h
  constructor
  · have hframe := exec_framed (ps := [.bus, .traffic, .tws, .result, .mem, .olds])
      (by simp [commandBody, Task.parts]) h
    refine hframe.eq_of ⟨rfl, rfl, rfl, rfl, rfl, rfl⟩ (by simp [State.part]) (fun p hp => ?_) rfl rfl rfl rfl
    cases p <;> simp_all [State.part]
  · suffices hmem : s.mem.SameOutside s.bufptrNow.toNat len.toNat t.mem from hmem.2
    have hself : s.mem.SameOutside s.bufptrNow.toNat len.toNat s.mem := ⟨hwf, fun _ _ => rfl⟩
    cases exec_accepted h with
    | dropped | refused => exact hself
    | @launched lb d hi hlb =>
      obtain rfl : lb = s.bufptrNow := hlb ⟨dev, sub, len, .inr rfl⟩
      have hfits : s.bufptrNow.toNat + len.toNat ≤ Config.bufSpace := buffer_fits_of_accepted hi hlb
      refine State.Receives.mem_same (State.runBlock_keeps (P := State.Receives _ _ _)
        (fun _ => State.Receives.micro hfits) _ _ ?_)
      exact .running
        { s with draws := d, run := { s.run with
          st := .ok, todo := [.stop, .start (sla dev false), .write sub, .start (sla dev true)] } }
        { cmd := .rdbuf dev sub len, lbuf := s.bufptrNow, idx := 0, olds := [], mem := s.mem, pace := s.pace
          after := .recvLoop :: closeBus }
        rfl (by simp [Task.plain, Task.transfers]) hself rfl rfl (.inr (.inl rfl))

end Sys2Proof.Machine
end

section
/-! SUPPORT. The phase primitives as commands (spec 41_phase_primitives.md): each of START, STOP, WRITE and READ
latched, run to its end and reported, by what its primitive comes to (Laws/Primitives.lean). -/

namespace Sys2Proof.Machine

/-! ## A command accepted, run and ended -/

/-- A command that is latched and whose body ends within the pace has the next state in which it ended. -/
theorem exec_of_ended {i : Instr} {body : List Task} {s v u : State} {k : Nat}
    (hexec : exec i s = .next (v.launch i body)) (hrun : Goes k (v.latch i body) u) (hended : u.busy = false)
    (hk : k ≤ v.pace) : exec i s = .next u := by
  rw [hexec, State.launch, hrun.ended hended hk]

section
variable {s : State} (h : s.Accepting)
include h

theorem exec_start_accepting (a : Byte) : exec (.start a) s = .next (s.launch (.start a) [.start a, .result]) := by
  refine congrArg Host.Outcome.next ((s.screen_ready _ h.1).trans ?_)
  exact s.whenConfigured_configured _ h.2

theorem exec_write_accepting (hheld : s.held = true) (b : Byte) :
    exec (.write b) s = .next (s.launch (.write b) [.write b, .result]) := by
  refine congrArg Host.Outcome.next ((s.screen_ready _ h.1).trans ?_)
  exact (s.whenConfigured_configured _ h.2).trans (if_pos hheld)

theorem exec_read_accepting (hheld : s.held = true) (ack : Bool) :
    exec (.read ack) s = .next (s.launch (.read ack) [.read ack, .readEnd]) := by
  refine congrArg Host.Outcome.next ((s.screen_ready _ h.1).trans ?_)
  exact (s.whenConfigured_configured _ h.2).trans (if_pos hheld)

end

section
variable {s : State} {ts : List Task} {rest : List BusAnswer}

/-- `RESULT <- s` and the end of the command. -/
theorem goes_report (hb : s.busy = true) (ht : s.run.todo = [.result]) :
    Goes 2 s { s with
      busy := false, result := s.run.st, unset := { s.unset with result := false }
      run := { s.run with todo := [] } } := (goes_result hb ht).trans (.finish hb rfl)

/-- The end of READ whose receive was answered: RDATA, and RESULT untouched (R141). -/
theorem goes_readEnd_ok (hb : s.busy = true) (ht : s.run.todo = [.readEnd]) (hs : s.run.st = .ok) :
    Goes 2 s { s with
      busy := false, rdata := s.run.rx, unset := { s.unset with rdata := false }
      run := { s.run with todo := [] } } := by
  have h := Goes.point hb ht
  rw [State.taskStep, State.readEndStep, if_pos hs] at h
  exact h.trans (.finish hb rfl)

/-- The end of READ whose receive expired (R141). -/
theorem goes_readEnd_expired (hb : s.busy = true) (ht : s.run.todo = [.readEnd]) (hs : s.run.st = .timeout) :
    Goes 2 s { s with
      busy := false, result := .timeout, unset := { s.unset with result := false }
      run := { s.run with todo := [] } } := by
  have h := Goes.point hb ht
  rw [State.taskStep, State.readEndStep, if_neg (by simp [hs])] at h
  exact h.trans (.finish hb rfl)

end

/-! ## Completed commands (R125 to R142) -/

/-- Settles O28: by the start's two checks, each passed or failed. -/
theorem startOutcome : Obligations.StartOutcome := by
  intro s a n1 n2 st1 d1 st2 d2 rest hs henv hw1 hw2 hpace
  have hexec := exec_start_accepting hs a
  by_cases hst : st1 ∈ s.platform.startBytes
  · by_cases hack : ackedAddress st2
    · have hrun := (goes_start_ok (s := s.latch (.start a) [.start a, .result]) rfl rfl rfl henv hw1 hw2 hst
        hack).trans (goes_report rfl rfl)
      refine ⟨_, exec_of_ended hexec hrun rfl (by omega), ?_⟩
      simp only [hst, hack, and_self, if_true, hs.1.2]
      rfl
    · have hrun := (goes_start_nack (s := s.latch (.start a) [.start a, .result]) rfl rfl rfl henv hw1 hw2 hst
        hack).trans (goes_report rfl rfl)
      refine ⟨_, exec_of_ended hexec hrun rfl (by omega), ?_⟩
      simp only [hst, hack, and_false, if_true, if_false, hs.1.2]
      rfl
  · have hrun := (goes_start_bad (s := s.latch (.start a) [.start a, .result]) rfl rfl rfl henv hw1
      hst).trans (goes_report rfl rfl)
    refine ⟨_, exec_of_ended hexec hrun rfl (by omega), ?_⟩
    simp only [hst, false_and, if_false, hs.1.2]
    rfl

/-- Settles O29. -/
theorem stopOutcome : Obligations.StopOutcome := by
  intro s hs
  refine ⟨fun hfree hpace => ⟨_, exec_stop_free hs hfree hpace, ?_⟩, fun n st d rest hheld henv hw hpace => ?_⟩
  · rw [hs.1.2]
    rfl
  · have hrun := (goes_stop_held (s := s.latch .stop [.stop]) rfl rfl hheld henv hw).trans (.finish rfl rfl)
    refine ⟨_, exec_of_ended (exec_stop_accepting hs) hrun rfl (by omega), ?_⟩
    rw [hs.1.2]
    rfl

/-- Settles O31. -/
theorem writeOutcome : Obligations.WriteOutcome := by
  intro s b n st d rest hs hheld henv hw hpace
  have hrun := (goes_write (s := s.latch (.write b) [.write b, .result]) rfl rfl rfl henv hw).trans
    (goes_report rfl rfl)
  refine ⟨_, exec_of_ended (exec_write_accepting hs hheld b) hrun rfl (by omega), ?_⟩
  rw [hs.1.2]
  rfl

/-- Settles O32. -/
theorem readOutcome : Obligations.ReadOutcome := by
  intro s ack n st d rest hs hheld henv hw hpace
  have hrun := (goes_read (s := s.latch (.read ack) [.read ack, .readEnd]) rfl rfl rfl henv hw).trans
    (goes_readEnd_ok rfl rfl rfl)
  refine ⟨_, exec_of_ended (exec_read_accepting hs hheld ack) hrun rfl (by omega), ?_⟩
  rw [hs.1.2]
  rfl

/-! ## Operations that expire, and operations that hang (R121) -/

section
variable {s : State} {ts : List Task} {rest : List BusAnswer} {l : Nat} (hb : s.busy = true)
  (h1 : 1 ≤ l) (hp : s.platform.pollLimit = some l) (he : s.env = List.replicate l .notYet ++ rest)
include hb h1 hp he

/-- `PrimStart` whose start condition stays unanswered. -/
theorem goes_start_expired {a : Byte} (ht : s.run.todo = .start a :: ts) (hs : s.run.st = .ok) :
    Goes (l + 1) s { s with
      held := true, phase := if s.held then .repeatedStart else .started, stoPend := false
      trace := s.trace ++ [.startCond], env := rest
      run := { s.run with npoll := l, st := .timeout, todo := ts } } := by
  have h := Goes.point hb ht
  rw [State.taskStep, State.startStep, State.whenOk, if_pos hs] at h
  rw [Nat.add_comm]
  exact h.trans (goes_expire (s := (s.claimBus.issue .startCond).setTodo (.startPoll a :: ts)) hb rfl rfl rfl h1 hp he)

/-- `PrimWrite` that stays unanswered. -/
theorem goes_write_expired {b : Byte} (ht : s.run.todo = .write b :: ts) (hs : s.run.st = .ok) :
    Goes (l + 1) s { s with
      trace := s.trace ++ [.tx b], env := rest
      run := { s.run with npoll := l, st := .timeout, todo := ts } } := by
  have h := Goes.point hb ht
  rw [State.taskStep, State.writeStep, State.whenOk, if_pos hs] at h
  rw [Nat.add_comm]
  exact h.trans (goes_expire (s := (s.issue (.tx b)).setTodo (.writePoll b :: ts)) hb rfl rfl rfl h1 hp he)

/-- `PrimRead` that stays unanswered. -/
theorem goes_read_expired {k : Bool} (ht : s.run.todo = .read k :: ts) (hs : s.run.st = .ok) :
    Goes (l + 1) s { s with
      trace := s.trace ++ [.rx k], env := rest
      run := { s.run with npoll := l, st := .timeout, todo := ts } } := by
  have h := Goes.point hb ht
  rw [State.taskStep, State.readStep, State.whenOk, if_pos hs] at h
  rw [Nat.add_comm]
  exact h.trans (goes_expire (s := (s.issue (.rx k)).setTodo (.readPoll k :: ts)) hb rfl rfl rfl h1 hp he)

/-- `PrimStop` that stays unanswered leaves the bus held (R132). -/
theorem goes_stop_expired (ht : s.run.todo = .stop :: ts) (hheld : s.held = true) :
    Goes (l + 1) s { s with
      stoPend := true, trace := s.trace ++ [.stopCond], env := rest
      run := { s.run with npoll := l, todo := ts } } := by
  have h := Goes.point hb ht
  rw [State.taskStep, State.stopStep, if_pos hheld] at h
  rw [Nat.add_comm]
  exact h.trans (goes_expire_stop (s := (s.issue .stopCond).setTodo (.stopPoll :: ts)) hb rfl rfl rfl h1 hp he)

end

/-- `PrimStart` whose start condition is accepted and whose address byte stays unanswered. -/
theorem goes_addr_expired {s : State} {ts : List Task} {rest : List BusAnswer} {l : Nat} {a : Byte} {r : Reply}
    (hb : s.busy = true) (ht : s.run.todo = .start a :: ts) (hs : s.run.st = .ok)
    (h1 : 1 ≤ l) (hp : s.platform.pollLimit = some l)
    (he : s.env = repliesTo [r] (List.replicate l .notYet ++ rest)) (hw : waitAllowed s.platform r.polls)
    (hr : r.status ∈ s.platform.startBytes) :
    Goes (r.polls + 2 + l) s { s with
      held := true, phase := if s.held then .repeatedStart else .started, stoPend := false
      tws := r.status, trace := s.trace ++ [.startCond, .tx a], env := rest
      unset := { s.unset with tws := false }
      run := { s.run with npoll := l, st := .timeout, todo := ts } } :=
  (goes_start_sent hb ht hs he hw hr).trans (goes_expire hb rfl rfl rfl h1 hp rfl)

/-- Settles O33: each command by the point at which its operation expires. -/
theorem expiredPollsTimeOut : Obligations.ExpiredPollsTimeOut := by
  intro s l rest hs h1 hp
  refine ⟨fun henv hpace => ⟨fun a => ?_, fun hheld => ⟨?_, fun b => ?_, fun ack => ?_⟩⟩,
    fun a r hr hhears hpace => ?_⟩
  · have hrun := (goes_start_expired (s := s.latch (.start a) [.start a, .result]) rfl h1 hp henv rfl rfl).trans
      (goes_report rfl rfl)
    refine ⟨_, exec_of_ended (exec_start_accepting hs a) hrun rfl hpace, ?_⟩
    rw [hs.1.2]
    rfl
  · have hrun := (goes_stop_expired (s := s.latch .stop [.stop]) rfl h1 hp henv rfl hheld).trans (.finish rfl rfl)
    refine ⟨_, exec_of_ended (exec_stop_accepting hs) hrun rfl (by omega), ?_⟩
    rw [hs.1.2]
    rfl
  · have hrun := (goes_write_expired (s := s.latch (.write b) [.write b, .result]) rfl h1 hp henv rfl rfl).trans
      (goes_report rfl rfl)
    refine ⟨_, exec_of_ended (exec_write_accepting hs hheld b) hrun rfl hpace, ?_⟩
    rw [hs.1.2]
    rfl
  · have hrun := (goes_read_expired (s := s.latch (.read ack) [.read ack, .readEnd]) rfl h1 hp henv rfl rfl).trans
      (goes_readEnd_expired rfl rfl rfl)
    refine ⟨_, exec_of_ended (exec_read_accepting hs hheld ack) hrun rfl hpace, ?_⟩
    rw [hs.1.2]
    rfl
  · obtain ⟨henv, hw⟩ := hhears
    have hrun := (goes_addr_expired (s := s.latch (.start a) [.start a, .result]) rfl rfl rfl h1 hp henv
      (hw r (by simp)) hr).trans (goes_report rfl rfl)
    refine ⟨_, exec_of_ended (exec_start_accepting hs a) hrun rfl (by omega), ?_⟩
    rw [hs.1.2]
    rfl

/-- Settles O34: without a limit every wait is allowed. -/
theorem unansweredPollsHang : Obligations.UnansweredPollsHang := by
  intro n s t ts rest hb hp htodo henv hwaiting
  exact goes_wait hb htodo hwaiting henv (fun l hl => nomatch hp.symm.trans hl) 0

end Sys2Proof.Machine
end

section
/-! SUPPORT. The buffered commands to their end (spec 42_buffered_operations.md): how a primitive can fail, said once,
what follows a failure, and the closing of the bus; then the failures before the data and WRSINGLE. -/

namespace Sys2Proof.Machine

/-! ## Primitives that fail (41_phase_primitives.md R121, R126, R136, R141) -/

/-- What a failed primitive leaves: its status, TWS and whether it is unspecified, the bus operations issued, BusEnv's
answers after it, and the points it took. -/
structure Failure where
  status : StatusCode
  tws : Byte
  free : Bool
  ops : List BusOp
  env : List BusAnswer
  points : Nat

/-- How the primitive that a point calls fails, on the platform `p`, under BusEnv's answers `env`, where TWS is `v` and
is unspecified if `free`. -/
inductive Fails (p : Platform) (env : List BusAnswer) (v : Byte) (free : Bool) : Task → Failure → Prop
  | badStart {a : Byte} {r : Reply} {rest : List BusAnswer} (he : env = repliesTo [r] rest)
      (hw : waitAllowed p r.polls) (hr : r.status ∉ p.startBytes) :
      Fails p env v free (.start a) ⟨.badStart, r.status, false, [.startCond], rest, r.polls + 2⟩
  | addrNack {a : Byte} {r r' : Reply} {rest : List BusAnswer} (he : env = repliesTo [r, r'] rest)
      (hw : waitAllowed p r.polls) (hw' : waitAllowed p r'.polls) (hr : r.status ∈ p.startBytes)
      (hr' : ¬ ackedAddress r'.status) :
      Fails p env v free (.start a)
        ⟨.slaveAddressNotAcknowledging, r'.status, false, [.startCond, .tx a], rest, r.polls + r'.polls + 4⟩
  | dataNack {b : Byte} {r : Reply} {rest : List BusAnswer} (he : env = repliesTo [r] rest)
      (hw : waitAllowed p r.polls) (hr : r.status ≠ dataTxAck) :
      Fails p env v free (.write b) ⟨.slaveDataNotAcknowledging, r.status, false, [.tx b], rest, r.polls + 3⟩
  | startExpired {a : Byte} {l : Nat} {rest : List BusAnswer} (h1 : 1 ≤ l) (hp : p.pollLimit = some l)
      (he : env = List.replicate l .notYet ++ rest) :
      Fails p env v free (.start a) ⟨.timeout, v, free, [.startCond], rest, l + 1⟩
  | addrExpired {a : Byte} {r : Reply} {l : Nat} {rest : List BusAnswer} (h1 : 1 ≤ l) (hp : p.pollLimit = some l)
      (he : env = repliesTo [r] (List.replicate l .notYet ++ rest)) (hw : waitAllowed p r.polls)
      (hr : r.status ∈ p.startBytes) :
      Fails p env v free (.start a) ⟨.timeout, r.status, false, [.startCond, .tx a], rest, r.polls + 2 + l⟩
  | writeExpired {b : Byte} {l : Nat} {rest : List BusAnswer} (h1 : 1 ≤ l) (hp : p.pollLimit = some l)
      (he : env = List.replicate l .notYet ++ rest) :
      Fails p env v free (.write b) ⟨.timeout, v, free, [.tx b], rest, l + 1⟩
  | readExpired {k : Bool} {l : Nat} {rest : List BusAnswer} (h1 : 1 ≤ l) (hp : p.pollLimit = some l)
      (he : env = List.replicate l .notYet ++ rest) :
      Fails p env v free (.read k) ⟨.timeout, v, free, [.rx k], rest, l + 1⟩

theorem Fails.status_ne_ok {p : Platform} {env : List BusAnswer} {v : Byte} {free : Bool} {t : Task} {f : Failure}
    (h : Fails p env v free t f) : f.status ≠ .ok := by
  cases h <;> nofun

/-- `s` once the bus is claimed, which a start does and no other point (R125). -/
def Task.claim : Task → State → State
  | .start _, s => s.claimBus
  | _, s => s

/-- On a bus already held a claim sets PHASE alone. -/
theorem Task.claim_held (t : Task) {s : State} (hheld : s.held = true) (hpend : s.stoPend = false) :
    t.claim s = { s with phase := (t.claim s).phase } := by
  cases t with
  | start a => rw [Task.claim, State.claimBus, ← hheld, ← hpend]
  | _ => rfl

/-- `s` after the failure `f` of the point `t`, with the points `ts` still to come. -/
def State.failed (t : Task) (f : Failure) (n : Nat) (ts : List Task) (s : State) : State :=
  { t.claim s with
    tws := f.tws, trace := s.trace ++ f.ops, env := f.env, unset := { s.unset with tws := f.free }
    run := { s.run with npoll := n, st := f.status, todo := ts } }

theorem Fails.goes {s : State} {t : Task} {ts : List Task} {f : Failure}
    (h : Fails s.platform s.env s.tws s.unset.tws t f) (hb : s.busy = true) (ht : s.run.todo = t :: ts)
    (hs : s.run.st = .ok) : ∃ n, Goes f.points s (s.failed t f n ts) := by
  cases h with
  | badStart he hw hr => exact ⟨_, goes_start_bad hb ht hs he hw hr⟩
  | addrNack he hw hw' hr hr' => exact ⟨_, goes_start_nack hb ht hs he hw hw' hr hr'⟩
  | dataNack he hw hr =>
    have h := goes_write hb ht hs he hw
    rw [if_neg hr, if_neg hr] at h
    exact ⟨_, h⟩
  | startExpired h1 hp he => exact ⟨_, goes_start_expired hb h1 hp he ht hs⟩
  | addrExpired h1 hp he hw hr => exact ⟨_, goes_addr_expired hb ht hs h1 hp he hw hr⟩
  | writeExpired h1 hp he => exact ⟨_, goes_write_expired hb h1 hp he ht hs⟩
  | readExpired h1 hp he => exact ⟨_, goes_read_expired hb h1 hp he ht hs⟩

/-! ## After a failure: nothing but the cleanup stop (42_buffered_operations.md R180, R181) -/

/-- Points that do nothing once the status is not Ok (R180). -/
def Task.skips : Task → Bool
  | .start _ | .write _ | .read _ | .store | .sendLoop | .recvLoop => true
  | .config _ | .configured | .startPoll _ | .addrPoll _ | .addrDone _ | .stop | .stopPoll | .writePoll _
  | .writeDone | .readPoll _ | .readDone | .readEnd | .sendNext | .result => false

section
variable {s : State} {ts : List Task} {rest : List BusAnswer}

theorem goes_skips {mid : List Task} (hb : s.busy = true) (ht : s.run.todo = mid ++ ts) (hs : s.run.st ≠ .ok)
    (hmid : ∀ t ∈ mid, t.skips = true) : Goes mid.length s (s.setTodo ts) := by
  induction mid generalizing s with
  | nil =>
    have hsame : s.setTodo ts = s := by rw [State.setTodo, ← (show s.run.todo = ts from ht)]
    rw [hsame]
    exact Goes.zero s
  | cons t mid ih =>
    obtain ⟨ht', hmid⟩ := List.forall_mem_cons.1 hmid
    have hkind : (∃ a, t = .start a) ∨ (∃ b, t = .write b) ∨ (∃ k, t = .read k) ∨ t = .store ∨
        t = .sendLoop ∨ t = .recvLoop := by
      cases t <;> simp [Task.skips] at ht' ⊢
    have h := (goes_skip (ts := mid ++ ts) hb ht hs hkind).trans (ih (s := s.setTodo (mid ++ ts)) hb rfl hs hmid)
    rw [Nat.add_comm] at h
    exact h

/-- The end of a buffered command: the points that are skipped, the cleanup stop and `RESULT <- s`. -/
theorem goes_closes {mid : List Task} {y : Reply} (hb : s.busy = true) (ht : s.run.todo = mid ++ closeBus)
    (hmid : ∀ t ∈ mid, t.skips = true) (hs : mid = [] ∨ s.run.st ≠ .ok) (hh : s.held = true)
    (he : s.env = repliesTo [y] rest) (hl : waitAllowed s.platform y.polls) :
    Goes (mid.length + (y.polls + 4)) s { s with
      busy := false, held := false, phase := .stopped, stoPend := false, result := s.run.st
      trace := s.trace ++ [.stopCond], env := rest, unset := { s.unset with result := false }
      run := { s.run with npoll := y.polls, todo := [] } } := by
  obtain rfl | hs := hs
  · rw [List.length_nil, Nat.zero_add]
    exact goes_closeBus hb ht hh he hl
  · exact (goes_skips hb ht hs hmid).trans (goes_closeBus (s := s.setTodo closeBus) hb rfl hh he hl)

end

/-! ## A buffered command between its two stops -/

/-- `s` with the command `i` latched, at the buffer base `lb`. -/
def State.latchedAt (i : Instr) (lb : Addr) (s : State) : State :=
  State.latch i (commandBody i) { s with run := { s.run with lbuf := lb } }

/-- `u` is `s` between the two stops of a buffered command, with the bus held: `ops` are its operations after the
defensive stop, `tw` is TWS and `w` whether it is unspecified. The points still to come and the phase are left open. -/
def State.Holds (s : State) (tw : Byte) (w : Bool) (ops : List BusOp) (m : Memory) (e : List BusAnswer)
    (u : State) : Prop :=
  u = { s with
    busy := true, held := true, phase := u.phase, stoPend := false, tws := tw, mem := m
    trace := s.trace ++ ((if s.held then [.stopCond] else []) ++ ops), env := e
    unset := { s.unset with tws := w }, run := u.run }

/-- `t` is `s` after a buffered command that ended with the bus released: `Transacted`, with whether TWS is
unspecified left open. -/
def State.Closed (s : State) (res : StatusCode) (tw : Byte) (w : Bool) (ops : List BusOp) (m : Memory)
    (rest : List BusAnswer) (t : State) : Prop :=
  t = { s with
    held := false, phase := .stopped, stoPend := false, result := res, tws := tw, mem := m
    trace := s.trace ++ ((if s.held then [.stopCond] else []) ++ ops ++ [.stopCond]), env := rest
    unset := { s.unset with result := false, tws := w }, run := t.run }

theorem State.Closed.mem_eq {s t : State} {res : StatusCode} {tw : Byte} {w : Bool} {ops : List BusOp} {m : Memory}
    {rest : List BusAnswer} (h : s.Closed res tw w ops m rest t) : t.mem = m := by
  rw [h]

section
variable {s u : State} {tw : Byte} {w : Bool} {ops : List BusOp} {m : Memory} {e : List BusAnswer}

/-- What `State.Holds` says of the fields that the next point asks. -/
theorem State.Holds.fields (h : s.Holds tw w ops m e u) :
    u.busy = true ∧ u.held = true ∧ u.stoPend = false ∧ u.platform = s.platform ∧ u.env = e ∧ u.tws = tw ∧
      u.unset.tws = w ∧ u.mem = m := by
  rw [h]
  exact ⟨rfl, rfl, rfl, rfl, rfl, rfl, rfl, rfl⟩

theorem State.Holds.admits (h : s.Holds tw w ops m e u) (a : Nat) :
    u.admitsRead a = s.admitsRead a ∧ u.admitsWrite a = s.admitsWrite a := by
  rw [h]
  exact ⟨rfl, rfl⟩

/-- An operation between the two stops. -/
theorem State.Holds.moved (h : s.Holds tw w ops m e u) (p : Phase) (tw' : Byte) (w' : Bool) (ops' : List BusOp)
    (e' : List BusAnswer) (r : Run) : s.Holds tw' w' (ops ++ ops') m e' { u with
      phase := p, tws := tw', trace := u.trace ++ ops', env := e', unset := { u.unset with tws := w' }, run := r } := by
  rw [State.Holds]
  conv_lhs => rw [h]
  simp only [List.append_assoc]

/-- Between the operations only the latched command moves. -/
theorem State.Holds.run (h : s.Holds tw w ops m e u) (r : Run) : s.Holds tw w ops m e { u with run := r } := by
  rw [State.Holds]
  conv_lhs => rw [h]

/-- A primitive that fails between the two stops. -/
theorem State.Holds.failed {t : Task} {f : Failure} (h : s.Holds tw w ops m e u) (n : Nat) (ts : List Task) :
    s.Holds f.tws f.free (ops ++ f.ops) m f.env (u.failed t f n ts) := by
  obtain ⟨-, hheld, hpend, -⟩ := h.fields
  rw [State.failed, t.claim_held hheld hpend]
  exact h.moved _ _ _ _ _ _

theorem State.Holds.goes_fails {t : Task} {ts : List Task} {f : Failure} (h : s.Holds tw w ops m e u)
    (ht : u.run.todo = t :: ts) (hst : u.run.st = .ok) (hf : Fails s.platform e tw w t f) :
    ∃ n, Goes f.points u (u.failed t f n ts) := by
  obtain ⟨hb, -, -, hp, he, htw, hw, -⟩ := h.fields
  refine Fails.goes ?_ hb ht hst
  rwa [hp, he, htw, hw]

end

/-! ## A buffered command that ends -/

section
variable {i : Instr} {s u : State} {lb : Addr} {k : Nat} {tw : Byte} {w : Bool} {ops : List BusOp} {m : Memory}
  {e rest : List BusAnswer} {y : Reply} {mid : List Task} (hs : s.Accepting)
  (hexec : exec i s = .next ((s.latchedAt i lb).runBlock s.pace)) (hmid : ∀ t ∈ mid, t.skips = true)
  (hy : waitAllowed s.platform y.polls)
include hs hexec hmid hy

/-- A buffered command that has come to `u`, with only points to be skipped before its closing. -/
theorem exec_closes (hgo : Goes k (s.latchedAt i lb) u) (hu : s.Holds tw w ops m (repliesTo [y] rest) u)
    (htodo : u.run.todo = mid ++ closeBus) {c : StatusCode} (hst : u.run.st = c) (hc : mid = [] ∨ c ≠ .ok)
    (hpace : k + (mid.length + (y.polls + 4)) ≤ s.pace) :
    ∃ t, exec i s = .next t ∧ s.Closed c tw w ops m rest t := by
  subst hst
  obtain ⟨hb, hheld, -, hp, he, -⟩ := hu.fields
  have hend := goes_closes hb htodo hmid hc hheld he (hp ▸ hy)
  refine ⟨_, hexec.trans (congrArg _ ((hgo.trans hend).ended rfl hpace)), ?_⟩
  rw [State.Closed]
  conv_lhs => rw [hu]
  rw [hs.1.2]
  simp only [List.append_assoc]

/-- A buffered command that has come to `u`, whose next primitive fails, with only points to be skipped after it. -/
theorem exec_fails {t : Task} {f : Failure} (hgo : Goes k (s.latchedAt i lb) u) (hu : s.Holds tw w ops m e u)
    (htodo : u.run.todo = t :: (mid ++ closeBus)) (hst : u.run.st = .ok) (hf : Fails s.platform e tw w t f)
    (hfe : f.env = repliesTo [y] rest) (hpace : k + f.points + (mid.length + (y.polls + 4)) ≤ s.pace) :
    ∃ t, exec i s = .next t ∧ s.Closed f.status f.tws f.free (ops ++ f.ops) m rest t := by
  obtain ⟨n, hfails⟩ := hu.goes_fails htodo hst hf
  exact exec_closes hs hexec hmid hy (hgo.trans hfails) (hfe ▸ hu.failed n _) rfl rfl (.inr hf.status_ne_ok) hpace

variable {dev : BitVec 7} {sub : Byte} {x r1 r2 r3 : Reply} {f : Failure}

/-- A buffered command whose first start fails (R162). -/
theorem exec_start_fails (hbody : commandBody i = .stop :: .start (sla dev false) :: (mid ++ closeBus))
    (he : s.env = repliesTo (approach s.held x []) e)
    (hl : ∀ r ∈ approach s.held x [], waitAllowed s.platform r.polls)
    (hf : Fails s.platform e s.tws s.unset.tws (.start (sla dev false)) f) (hfe : f.env = repliesTo [y] rest)
    (hpace : 2 + pollCount (approach s.held x []) + f.points + (mid.length + (y.polls + 4)) ≤ s.pace) :
    ∃ t, exec i s = .next t ∧ s.Closed f.status f.tws f.free f.ops s.mem rest t := by
  obtain ⟨k, p, q, n, hk, hstop⟩ := goes_defensive_stop (s := s.latchedAt i lb) rfl hbody he hl
  change k ≤ 2 + pollCount (approach s.held x []) at hk
  obtain ⟨n', hfails⟩ := hf.goes (s := { s.latchedAt i lb with
    held := false, phase := p, stoPend := q, trace := s.trace ++ if s.held then [.stopCond] else []
    env := e, run := { (s.latchedAt i lb).run with npoll := n, todo := .start (sla dev false) :: (mid ++ closeBus) } })
    rfl rfl rfl
  refine exec_closes hs hexec hmid hy (hstop.trans hfails) ?_ rfl rfl (.inr hf.status_ne_ok) (by omega)
  rw [State.Holds, ← hfe, ← List.append_assoc]
  rfl

/-- A buffered command whose address is acknowledged and whose sub-address fails (R162). -/
theorem exec_sub_fails (hbody : commandBody i = openWrite dev sub ++ (mid ++ closeBus))
    (he : s.env = repliesTo (approach s.held x [r1, r2]) e)
    (hl : ∀ r ∈ approach s.held x [r1, r2], waitAllowed s.platform r.polls)
    (h1 : r1.status ∈ s.platform.startBytes) (h2 : ackedAddress r2.status)
    (hf : Fails s.platform e r2.status false (.write sub) f) (hfe : f.env = repliesTo [y] rest)
    (hpace : 6 + pollCount (approach s.held x [r1, r2]) + f.points + (mid.length + (y.polls + 4)) ≤ s.pace) :
    ∃ t, exec i s = .next t ∧
      s.Closed f.status f.tws f.free ([.startCond, .tx (sla dev false)] ++ f.ops) s.mem rest t := by
  rw [approach_eq] at he hl hpace
  rw [repliesTo_append] at he
  rw [pollCount_append, pollCount_cons, pollCount_cons, pollCount_nil] at hpace
  obtain ⟨hlx, hlr⟩ := List.forall_mem_append.1 hl
  obtain ⟨k, p, q, n, hk, hstop⟩ := goes_defensive_stop (s := s.latchedAt i lb) rfl hbody he hlx
  change k ≤ 2 + pollCount (approach s.held x []) at hk
  have hstart := hstop.trans (goes_start_acked rfl rfl rfl rfl (hlr r1 (by simp)) (hlr r2 (by simp)) h1 h2)
  refine exec_fails hs hexec hmid hy hstart ?_ rfl rfl hf hfe (by omega)
  rw [State.Holds, ← List.append_assoc]
  rfl

end

/-! ## The failures before the data -/

theorem exec_wrbuf_latched {s : State} {len : Byte} (hs : s.Accepting) (hset : s.unset.bufptr = false)
    (hfits : s.bufptr.toNat + len.toNat ≤ 65536) (dev : BitVec 7) (sub : Byte) :
    exec (.wrbuf dev sub len) s = .next ((s.latchedAt (.wrbuf dev sub len) s.bufptr).runBlock s.pace) :=
  exec_wrbuf_accepting hs hset hfits dev sub

theorem exec_rdbuf_latched {s : State} {len : Byte} (hs : s.Accepting) (hset : s.unset.bufptr = false)
    (hfits : s.bufptr.toNat + len.toNat ≤ 65536) (dev : BitVec 7) (sub : Byte) :
    exec (.rdbuf dev sub len) s = .next ((s.latchedAt (.rdbuf dev sub len) s.bufptr).runBlock s.pace) :=
  exec_rdbuf_accepting hs hset hfits dev sub

theorem exec_buffered_accepting {s : State} {i : Instr} {dev : BitVec 7} {sub arg : Byte} (hs : s.Accepting)
    (hi : i = .wrsingle dev sub arg ∨ ((i = .wrbuf dev sub arg ∨ i = .rdbuf dev sub arg) ∧
      s.unset.bufptr = false ∧ s.bufptr.toNat + arg.toNat ≤ 65536)) :
    ∃ lb, exec i s = .next ((s.latchedAt i lb).runBlock s.pace) := by
  obtain rfl | ⟨rfl | rfl, hset, hfits⟩ := hi
  · refine ⟨s.run.lbuf, congrArg Host.Outcome.next ((s.screen_ready _ hs.1).trans ?_)⟩
    exact s.whenConfigured_configured _ hs.2
  · exact ⟨s.bufptr, exec_wrbuf_latched hs hset hfits dev sub⟩
  · exact ⟨s.bufptr, exec_rdbuf_latched hs hset hfits dev sub⟩

/-- The body of a buffered command: its opening, at most two points that a failure skips, and its closing. -/
theorem commandBody_buffered {i : Instr} {dev : BitVec 7} {sub arg : Byte}
    (hi : i = .wrsingle dev sub arg ∨ i = .wrbuf dev sub arg ∨ i = .rdbuf dev sub arg) :
    ∃ mid, commandBody i = openWrite dev sub ++ (mid ++ closeBus) ∧ (∀ t ∈ mid, t.skips = true) ∧
      mid.length ≤ 2 := by
  obtain rfl | rfl | rfl := hi
  · exact ⟨[.write arg], rfl, by simp [Task.skips], by simp⟩
  · exact ⟨[.sendLoop], rfl, by simp [Task.skips], by simp⟩
  · exact ⟨[.start (sla dev true), .recvLoop], rfl, by simp [Task.skips], le_rfl⟩

theorem skips_write_cons {sub : Byte} {mid : List Task} (hmid : ∀ t ∈ mid, t.skips = true) :
    ∀ t ∈ .write sub :: mid, t.skips = true := List.forall_mem_cons.2 ⟨rfl, hmid⟩

theorem approach_append (held : Bool) (x : Reply) (rs qs : List Reply) :
    approach held x (rs ++ qs) = approach held x rs ++ qs := (List.append_assoc _ rs qs).symm

theorem pollCount_approach (held : Bool) (x : Reply) (rs : List Reply) :
    pollCount (approach held x rs) = (if held then x.polls else 0) + pollCount rs := by
  rw [approach, pollCount_append]
  cases held <;> rfl

theorem pollCount_transaction (held : Bool) (x y : Reply) (rs : List Reply) :
    pollCount (transaction held x y rs) = (if held then x.polls else 0) + pollCount rs + y.polls := by
  rw [transaction, pollCount_append, pollCount_approach]
  rfl

/-- BusEnv's replies to a whole buffered command, taken apart. -/
theorem State.Hears.split {s : State} {x y : Reply} {rs qs : List Reply} {rest : List BusAnswer}
    (h : s.Hears (transaction s.held x y (rs ++ qs)) rest) :
    s.env = repliesTo (approach s.held x rs) (repliesTo qs (repliesTo [y] rest)) ∧
      (∀ r ∈ approach s.held x rs, waitAllowed s.platform r.polls) ∧
      (∀ r ∈ qs, waitAllowed s.platform r.polls) ∧ waitAllowed s.platform y.polls := by
  obtain ⟨he, hl⟩ := h
  rw [transaction_eq] at he hl
  obtain ⟨hlr, hl⟩ := List.forall_mem_append.1 hl
  obtain ⟨hlq, hly⟩ := List.forall_mem_append.1 hl
  rw [repliesTo_append, repliesTo_append] at he
  exact ⟨he, hlr, hlq, hly y (List.mem_singleton.2 rfl)⟩

/-- Settles O35: the first start fails in one of its two checks, or the sub-address fails. -/
theorem bufferedEarlyFailures : Obligations.BufferedEarlyFailures := by
  intro s i dev sub arg x y r1 r2 r3 rest hs hi hpace
  obtain ⟨lb, hexec⟩ := exec_buffered_accepting hs hi
  obtain ⟨mid, hbody, hmid, hlen⟩ := commandBody_buffered (hi.imp_right fun h => h.1)
  simp only [pollCount_transaction, pollCount_cons, pollCount_nil] at hpace
  refine ⟨fun h1 hhears => ?_, fun h1 h2 hhears => ?_, fun h1 h2 h3 hhears => ?_⟩
  · obtain ⟨he, hlx, hl, hy⟩ := hhears.split (rs := [])
    exact exec_start_fails hs hexec (skips_write_cons hmid) hy hbody he hlx (.badStart rfl (hl r1 (by simp)) h1) rfl
      (by simp only [pollCount_approach, pollCount_nil, List.length_cons]; omega)
  · obtain ⟨he, hlx, hl, hy⟩ := hhears.split (rs := [])
    exact exec_start_fails hs hexec (skips_write_cons hmid) hy hbody he hlx
      (.addrNack rfl (hl r1 (by simp)) (hl r2 (by simp)) h1 h2) rfl
      (by simp only [pollCount_approach, pollCount_nil, List.length_cons]; omega)
  · obtain ⟨he, hlx, hl, hy⟩ := hhears.split (rs := [r1, r2])
    refine exec_sub_fails hs hexec hmid hy hbody he hlx h1 h2 (.dataNack rfl (hl r3 (by simp)) h3) rfl ?_
    simp only [pollCount_approach, pollCount_cons, pollCount_nil]
    omega

/-! ## After the opening -/

section
variable {i : Instr} {s : State} {lb : Addr} {ts : List Task} {dev : BitVec 7} {sub : Byte}
  {x r1 r2 r3 r4 r5 : Reply} {e : List BusAnswer}

/-- A buffered command up to its acknowledged sub-address. -/
theorem goes_opened (hbody : commandBody i = openWrite dev sub ++ ts)
    (he : s.env = repliesTo (approach s.held x [r1, r2, r3]) e)
    (hl : ∀ r ∈ approach s.held x [r1, r2, r3], waitAllowed s.platform r.polls) (hopens : Opens s.platform r1 r2 r3) :
    ∃ k u n, k ≤ 9 + pollCount (approach s.held x [r1, r2, r3]) ∧ Goes k (s.latchedAt i lb) u ∧
      s.Holds dataTxAck false [.startCond, .tx (sla dev false), .tx sub] s.mem e u ∧ u.phase = .writing ∧
      u.run = { (s.latchedAt i lb).run with npoll := n, todo := ts } := by
  obtain ⟨k, hk, hopen⟩ := goes_openWrite (s := s.latchedAt i lb) (rs := []) (rest := e) rfl hbody rfl
    (by rw [List.append_nil]; exact he) hl hopens
  refine ⟨k, _, r3.polls, hk, hopen, ?_, rfl, rfl⟩
  rw [State.Holds, ← List.append_assoc]
  rfl

/-- RDBUF up to its acknowledged read address. -/
theorem goes_turned (hbody : commandBody i = openWrite dev sub ++ .start (sla dev true) :: ts)
    (he : s.env = repliesTo (approach s.held x [r1, r2, r3, r4, r5]) e)
    (hl : ∀ r ∈ approach s.held x [r1, r2, r3, r4, r5], waitAllowed s.platform r.polls)
    (hopens : Opens s.platform r1 r2 r3) (hturns : Turns s.platform r4 r5) :
    ∃ k u n, k ≤ 13 + pollCount (approach s.held x [r1, r2, r3, r4, r5]) ∧ Goes k (s.latchedAt i lb) u ∧
      s.Holds r5.status false [.startCond, .tx (sla dev false), .tx sub, .startCond, .tx (sla dev true)] s.mem e u ∧
      u.run = { (s.latchedAt i lb).run with npoll := n, todo := ts } := by
  rw [show [r1, r2, r3, r4, r5] = [r1, r2, r3] ++ [r4, r5] from rfl, approach_append] at he hl ⊢
  obtain ⟨k, hk, hopen⟩ := goes_openRead (s := s.latchedAt i lb) (rs := []) (rest := e) rfl hbody rfl he hl hopens
    hturns
  refine ⟨k, _, r5.polls, hk, hopen, ?_, rfl⟩
  rw [State.Holds, ← List.append_assoc]
  rfl

end

/-- Settles O36: after the opening the byte is acknowledged or not. -/
theorem wrsingleSends : Obligations.WrsingleSends := by
  intro s dev sub b x y r1 r2 r3 r4 rest hs hopens hhears hpace
  obtain ⟨lb, hexec⟩ := exec_buffered_accepting (i := .wrsingle dev sub b) hs (.inl rfl)
  obtain ⟨he, hlx, hl, hy⟩ := hhears.split (rs := [r1, r2, r3]) (qs := [r4])
  obtain ⟨k, u, n, hk, hgo, hu, -, hrun⟩ := goes_opened (i := .wrsingle dev sub b) (lb := lb)
    (ts := .write b :: closeBus) rfl he hlx hopens
  obtain ⟨hb, -, -, hp, henv, -⟩ := hu.fields
  simp only [pollCount_transaction, pollCount_approach, pollCount_cons, pollCount_nil] at hpace hk
  have htodo : u.run.todo = .write b :: closeBus := by rw [hrun]
  have hst : u.run.st = .ok := by rw [hrun]; rfl
  by_cases h4 : r4.status = dataTxAck
  · have hwrite := goes_write_acked hb htodo hst henv (hp ▸ hl r4 (by simp)) h4
    rw [if_pos h4, h4]
    exact exec_closes (mid := []) hs hexec (by simp) hy (hgo.trans hwrite) (hu.moved ..) rfl hst (.inl rfl)
      (by simp only [List.length_nil]; omega)
  · rw [if_neg h4]
    exact exec_fails (mid := []) hs hexec (by simp) hy hgo hu htodo hst
      (.dataNack rfl (hl r4 (by simp)) h4) rfl (by simp only [List.length_nil]; omega)

end Sys2Proof.Machine
end

section
/-! SUPPORT. The byte loops of WRBUF and RDBUF (spec 42_buffered_operations.md R162, R171, R172) up to a byte that fails
its check, a byte that the platform refuses, or the end of the buffer. -/

namespace Sys2Proof.Machine

/-! ## RDBUF's turn to the read direction -/

/-- Settles O39: the repeated start fails in one of its two checks. -/
theorem rdbufDirectionFailures : Obligations.RdbufDirectionFailures := by
  intro s dev sub len x y r1 r2 r3 r4 r5 rest hs hset hfits hopens hpace
  have hexec := exec_rdbuf_latched hs hset hfits dev sub
  simp only [pollCount_transaction, pollCount_cons, pollCount_nil] at hpace
  refine ⟨fun h4 hhears => ?_, fun h4 h5 hhears => ?_⟩
  · obtain ⟨he, hlx, hl, hy⟩ := hhears.split (rs := [r1, r2, r3]) (qs := [r4])
    obtain ⟨k, u, n, hk, hgo, hu, -, hrun⟩ := goes_opened (i := .rdbuf dev sub len) (lb := s.bufptr)
      (ts := .start (sla dev true) :: .recvLoop :: closeBus) rfl he hlx hopens
    simp only [pollCount_approach, pollCount_cons, pollCount_nil] at hk
    exact exec_fails (mid := [.recvLoop]) hs hexec (by simp [Task.skips]) hy hgo hu (by rw [hrun]; rfl)
      (by rw [hrun]; rfl) (.badStart rfl (hl r4 (by simp)) h4) rfl
      (by simp only [List.length_cons, List.length_nil]; omega)
  · obtain ⟨he, hlx, hl, hy⟩ := hhears.split (rs := [r1, r2, r3]) (qs := [r4, r5])
    obtain ⟨k, u, n, hk, hgo, hu, -, hrun⟩ := goes_opened (i := .rdbuf dev sub len) (lb := s.bufptr)
      (ts := .start (sla dev true) :: .recvLoop :: closeBus) rfl he hlx hopens
    simp only [pollCount_approach, pollCount_cons, pollCount_nil] at hk
    exact exec_fails (mid := [.recvLoop]) hs hexec (by simp [Task.skips]) hy hgo hu (by rw [hrun]; rfl)
      (by rw [hrun]; rfl) (.addrNack rfl (hl r4 (by simp)) (hl r5 (by simp)) h4 h5) rfl
      (by simp only [List.length_cons, List.length_nil]; omega)

/-! ## WRBUF's loop (R162) -/

section
variable {s : State} {ts : List Task} {rest : List BusAnswer} (hb : s.busy = true) (ht : s.run.todo = .sendLoop :: ts)

include hb ht in
/-- The head of the loop at a byte that the platform admits. -/
theorem goes_send_read (hs : s.run.st = .ok) (hidx : s.run.idx < s.run.len) (hr : s.admitsRead s.run.addr = true)
    (hold : s.run.olds = []) :
    Goes 1 s (s.setTodo (.write (s.mem.read s.run.addr) :: .sendNext :: ts)) := by
  have h := Goes.point hb ht
  rwa [State.taskStep, State.sendLoopStep_admitted ts hs hidx hr hold] at h

include hb ht in
/-- The head of the loop with no byte left. -/
theorem goes_send_done (hidx : s.run.len ≤ s.run.idx) : Goes 1 s (s.setTodo ts) := by
  have h := Goes.point hb ht
  rwa [State.taskStep, State.sendLoopStep, if_neg fun h => absurd h.2 (Nat.not_lt.2 hidx)] at h

/-- The end of the loop's body. -/
theorem goes_sendNext (hb : s.busy = true) (ht : s.run.todo = .sendNext :: ts) :
    Goes 1 s (s.bumpIdx.setTodo (.sendLoop :: ts)) := Goes.point hb ht

/-- The `n` bytes that `s` sends next: those of memory from `s.run.addr`, in rising order. -/
def State.sends (s : State) (n : Nat) : List BusOp :=
  (List.range n).map fun k => .tx (s.mem.read (s.run.addr + k))

theorem State.sends_succ (s : State) (n : Nat) :
    s.sends (n + 1) = s.sends n ++ [.tx (s.mem.read (s.run.addr + n))] := by
  rw [State.sends, List.range_succ, List.map_append]
  rfl

/-- `s` at the head of the loop, after `n` bytes more, all acknowledged. -/
def State.sent (n polls : Nat) (env : List BusAnswer) (s : State) : State :=
  { s with
    trace := s.trace ++ s.sends n, env := env
    run := { s.run with npoll := polls, idx := s.run.idx + n } }

theorem State.sent_zero {polls : Nat} {env : List BusAnswer} (hn : s.run.npoll = polls) (he : s.env = env) :
    s.sent 0 polls env = s := by
  rw [State.sent, State.sends, List.range_zero, List.map_nil, List.append_nil, ← hn, ← he]
  rfl

theorem State.sent_sent (s : State) (n p q : Nat) (env env' : List BusAnswer) :
    (s.sent n p env).sent 1 q env' = s.sent (n + 1) q env' := by
  have haddr : (s.sent n p env).run.addr = s.run.addr + n := (Nat.add_assoc _ _ _).symm
  have hbyte : (s.sent n p env).sends 1 = [.tx (s.mem.read (s.run.addr + n))] := by rw [← haddr]; rfl
  have htrace : s.trace ++ s.sends n ++ (s.sent n p env).sends 1 = s.trace ++ s.sends (n + 1) := by
    rw [hbyte, s.sends_succ, List.append_assoc]
  exact congrArg (fun ops => { s.sent (n + 1) q env' with trace := ops }) htrace

include hb ht in
/-- One byte of the loop, acknowledged; PHASE and TWS are already those of an acknowledged byte. -/
theorem goes_send_byte {r : Reply} {rs : List Reply} (hs : s.run.st = .ok) (hidx : s.run.idx < s.run.len)
    (he : s.env = repliesTo (r :: rs) rest) (hl : waitAllowed s.platform r.polls) (hack : r.status = dataTxAck)
    (hr : s.admitsRead s.run.addr = true) (hold : s.run.olds = []) (hphase : s.phase = .writing)
    (htws : s.tws = dataTxAck) (hset : s.unset.tws = false) :
    Goes (r.polls + 5) s (s.sent 1 r.polls (repliesTo rs rest)) := by
  have hread := goes_send_read hb ht hs hidx hr hold
  have hwrite := hread.trans (goes_write_acked hb rfl hs he hl hack)
  have hnext := hwrite.trans (goes_sendNext hb rfl)
  have hsame : ({ s.unset with tws := false } : Unset) = s.unset := by rw [← hset]
  rw [← ht, ← hphase, ← htws, show 1 + (r.polls + 3) + 1 = r.polls + 5 by omega] at hnext
  exact (congrArg (fun u => Goes _ s { s.sent 1 r.polls (repliesTo rs rest) with unset := u }) hsame).mp hnext

include hb ht in
/-- Bytes that are each acknowledged. -/
theorem goes_send_acked {acks rs : List Reply} (hs : s.run.st = .ok) (hidx : s.run.idx + acks.length ≤ s.run.len)
    (he : s.env = repliesTo (acks ++ rs) rest) (hl : ∀ r ∈ acks, waitAllowed s.platform r.polls)
    (hacks : ∀ r ∈ acks, r.status = dataTxAck) (hr : ∀ k < acks.length, s.admitsRead (s.run.addr + k) = true)
    (hold : s.run.olds = []) (hphase : s.phase = .writing) (htws : s.tws = dataTxAck) (hset : s.unset.tws = false) :
    ∃ n, Goes (5 * acks.length + pollCount acks) s (s.sent acks.length n (repliesTo rs rest)) := by
  induction acks using List.reverseRecOn generalizing rs with
  | nil => exact ⟨s.run.npoll, (State.sent_zero rfl he).symm ▸ Goes.zero s⟩
  | append_singleton acks r ih =>
    rw [List.length_append, List.length_singleton] at hidx hr ⊢
    rw [List.append_assoc] at he
    obtain ⟨hl, hlr⟩ := List.forall_mem_append.1 hl
    obtain ⟨hacks, hack⟩ := List.forall_mem_append.1 hacks
    obtain ⟨n, hgo⟩ := ih (by omega) he hl hacks fun k hk => hr k (by omega)
    have hadmits : s.admitsRead (s.run.lbuf.toNat + (s.run.idx + acks.length)) = true := by
      rw [← Nat.add_assoc]; exact hr acks.length (by omega)
    have hmore : s.run.idx + acks.length < s.run.len := by omega
    have hbyte := hgo.trans (goes_send_byte (s := s.sent acks.length n (repliesTo ([r] ++ rs) rest)) hb ht hs hmore rfl
      (hlr r (by simp)) (hack r (by simp)) hadmits hold hphase htws hset)
    rw [State.sent_sent] at hbyte
    refine ⟨r.polls, ?_⟩
    have hpoints : 5 * (acks.length + 1) + pollCount (acks ++ [r]) =
        5 * acks.length + pollCount acks + (r.polls + 5) := by
      rw [pollCount_append, pollCount_cons, pollCount_nil]; omega
    exact hpoints ▸ hbyte

end

section
variable {s u : State} {lb : Addr} {dev : BitVec 7} {sub len : Byte} {x y r1 r2 r3 : Reply} {acks : List Reply}
  {e rest : List BusAnswer} {ops : List BusOp} {f : Failure} {k n : Nat}

/-- Where a latched WRBUF stands at the head of its loop, before its byte `j`. -/
def Run.atByte (r : Run) (n j : Nat) : Run := { r with npoll := n, idx := j, todo := .sendLoop :: closeBus }

/-- WRBUF up to the head of its loop, after the bytes of `acks`. -/
theorem goes_wrbuf_sent (he : s.env = repliesTo (approach s.held x ([r1, r2, r3] ++ acks)) e)
    (hl : ∀ r ∈ approach s.held x ([r1, r2, r3] ++ acks), waitAllowed s.platform r.polls)
    (hopens : Opens s.platform r1 r2 r3) (hacks : ∀ r ∈ acks, r.status = dataTxAck) (hlen : acks.length ≤ len.toNat)
    (hr : ∀ k < acks.length, s.admitsRead (s.bufptr.toNat + k) = true) :
    ∃ k u n, k ≤ 5 * acks.length + 9 + pollCount (approach s.held x ([r1, r2, r3] ++ acks)) ∧
      Goes k (s.latchedAt (.wrbuf dev sub len) s.bufptr) u ∧
      s.Holds dataTxAck false ([.startCond, .tx (sla dev false), .tx sub] ++
        (List.range acks.length).map fun k => .tx (s.mem.read (s.bufptr.toNat + k))) s.mem e u ∧
      u.phase = .writing ∧ u.run = (s.latchedAt (.wrbuf dev sub len) s.bufptr).run.atByte n acks.length := by
  rw [approach_append] at he hl ⊢
  rw [repliesTo_append] at he
  obtain ⟨hlo, hla⟩ := List.forall_mem_append.1 hl
  obtain ⟨k, u, n, hk, hopen, hu, hphase, hrun⟩ := goes_opened (i := .wrbuf dev sub len) (lb := s.bufptr)
    (ts := .sendLoop :: closeBus) rfl he hlo hopens
  obtain ⟨hb, -, -, hp, henv, htws, hset, hmem⟩ := hu.fields
  have haddr : u.run.addr = s.bufptr.toNat := by rw [hrun]; rfl
  have hlen' : u.run.idx + acks.length ≤ u.run.len := by rw [hrun]; exact (Nat.zero_add _).symm ▸ hlen
  have hadmits : ∀ k < acks.length, u.admitsRead (u.run.addr + k) = true := fun k hk => by
    rw [(hu.admits _).1, haddr]
    exact hr k hk
  obtain ⟨n', hloop⟩ := goes_send_acked (s := u) (rs := []) (rest := e) hb (by rw [hrun]) (by rw [hrun]; rfl) hlen'
    (by rw [List.append_nil]; exact henv) (hp ▸ hla) hacks hadmits
    (by rw [hrun]; rfl) hphase htws hset
  have hsends : u.sends acks.length = (List.range acks.length).map fun k => .tx (s.mem.read (s.bufptr.toNat + k)) := by
    rw [State.sends, hmem, haddr]
  have hsent : s.Holds u.tws u.unset.tws (_ ++ u.sends acks.length) s.mem e (u.sent acks.length n' e) :=
    hu.moved u.phase u.tws u.unset.tws _ e _
  rw [htws, hset, hsends] at hsent
  refine ⟨_, _, n', ?_, hopen.trans hloop, hsent, hphase, ?_⟩
  · rw [pollCount_append]; omega
  · rw [State.sent, hrun]
    exact congrArg (fun j => Run.atByte _ n' j) (Nat.zero_add _)

/-- WRBUF at the head of its loop, with a byte that the platform admits and whose `PrimWrite` fails. -/
theorem exec_send_fails (hs : s.Accepting)
    (hexec : exec (.wrbuf dev sub len) s = .next ((s.latchedAt (.wrbuf dev sub len) lb).runBlock s.pace)) {j : Nat}
    (hy : waitAllowed s.platform y.polls) (hgo : Goes k (s.latchedAt (.wrbuf dev sub len) lb) u)
    (hu : s.Holds dataTxAck false ops s.mem e u)
    (hrun : u.run = (s.latchedAt (.wrbuf dev sub len) lb).run.atByte n j) (hj : j < len.toNat)
    (hr : s.admitsRead (lb.toNat + j) = true)
    (hf : Fails s.platform e dataTxAck false (.write (s.mem.read (lb.toNat + j))) f)
    (hfe : f.env = repliesTo [y] rest) (hpace : k + f.points + (y.polls + 7) ≤ s.pace) :
    ∃ t, exec (.wrbuf dev sub len) s = .next t ∧ s.Closed f.status f.tws f.free (ops ++ f.ops) s.mem rest t := by
  obtain ⟨hb, -, -, -, -, -, -, hmem⟩ := hu.fields
  have hread := goes_send_read (s := u) (ts := closeBus) hb (by rw [hrun]; rfl) (by rw [hrun]; rfl)
    (by rw [hrun]; exact hj) (by rw [(hu.admits _).1, hrun]; exact hr) (by rw [hrun]; rfl)
  have haddr : u.run.addr = lb.toNat + j := by rw [hrun]; rfl
  rw [hmem, haddr] at hread
  have hu1 : s.Holds dataTxAck false ops s.mem e _ := hu.run { u.run with
    todo := .write (s.mem.read (lb.toNat + j)) :: .sendNext :: closeBus }
  obtain ⟨n', hfail⟩ := hu1.goes_fails rfl (by rw [hrun]; rfl) hf
  have hu2 := hu1.failed (t := .write (s.mem.read (lb.toNat + j))) (f := f) n' (.sendNext :: closeBus)
  have hnext := ((hread.trans hfail).trans (goes_sendNext hb rfl))
  have hu3 := hu2.run { (u.run.atByte n' (u.run.idx + 1)) with st := f.status }
  exact exec_closes (mid := [.sendLoop]) hs hexec (by simp [Task.skips]) hy (hgo.trans hnext) (hfe ▸ hu3) rfl rfl
    (.inr hf.status_ne_ok) (by simp only [List.length_cons, List.length_nil]; omega)

end

/-- Settles O37: the loop ends at the first byte that is not acknowledged, or at the end of the buffer. -/
theorem wrbufSendsTheBuffer : Obligations.WrbufSendsTheBuffer := by
  rintro s dev sub len x y r1 r2 r3 bad acks _ rest hs ⟨hset, hfits, hr⟩ hopens hacks hbad hlen rfl hhears hpace
  have hexec := exec_wrbuf_latched hs hset hfits dev sub
  obtain ⟨he, hlx, hl, hy⟩ := hhears.split
  obtain ⟨k, u, n, hk, hgo, hu, -, hrun⟩ := goes_wrbuf_sent (dev := dev) (sub := sub) he hlx hopens hacks hlen
    fun k hk => hr k (hk.trans_le hlen)
  simp only [pollCount_transaction, pollCount_approach, pollCount_append] at hpace hk
  by_cases hmore : acks.length < len.toNat
  · rw [if_pos hmore] at hu hl hpace
    rw [if_pos hmore, if_pos hmore, Nat.min_eq_left hmore, List.range_succ, List.map_append, ← List.append_assoc]
    simp only [pollCount_cons, pollCount_nil] at hpace hk
    exact exec_send_fails hs hexec hy hgo hu hrun hmore (hr _ hmore) (.dataNack rfl (hl bad (by simp)) hbad) rfl
      (by simp only; omega)
  · rw [if_neg hmore] at hu hpace
    simp only [pollCount_cons, pollCount_nil] at hpace hk
    rw [if_neg hmore, if_neg hmore, Nat.min_eq_right (by omega), ← (show acks.length = len.toNat by omega)]
    obtain ⟨hb, -⟩ := hu.fields
    have hdone := goes_send_done (s := u) (ts := closeBus) hb (by rw [hrun]; rfl)
      (by rw [hrun]; exact Nat.not_lt.1 hmore)
    have hst : u.run.st = .ok := by rw [hrun]; rfl
    exact exec_closes (mid := []) hs hexec (by simp) hy (hgo.trans hdone) (hu.run { u.run with todo := closeBus }) rfl
      hst (.inl rfl) (by simp only [List.length_nil]; omega)

/-- A byte that the platform refuses ends a buffered command where it stands, with the bus held (60_exceptions.md
R203). -/
theorem State.Holds.halts {s u : State} {ops : List BusOp} {e : List BusAnswer} {tw : Byte} {w : Bool} {m : Memory}
    (hs : s.Accepting) (h : s.Holds tw w ops m e u) :
    u.raise .bufAccess = { s with
      fault := true, fcause := .bufAccess, held := true, phase := u.phase, stoPend := false, tws := tw, mem := m
      trace := s.trace ++ ((if s.held then [.stopCond] else []) ++ ops), env := e
      unset := { s.unset with tws := w }, run := { u.run with todo := [] } } := by
  have hcause : u.firstCause .bufAccess = .bufAccess := by rw [h]; exact if_neg (by simp [hs.1.1])
  rw [State.raise_eq, if_pos rfl, hcause, State.withFault]
  conv_lhs => rw [h]
  rw [hs.1.2]

/-- Settles O42: the refused byte ends the command at the head of its loop. -/
theorem refusedReadHaltsWrbuf : Obligations.RefusedReadHaltsWrbuf := by
  rintro s dev sub len x r1 r2 r3 acks _ rest hs hset hfits hlen hr hrefused hopens hacks rfl ⟨he, hl⟩ hpace
  have hexec := exec_wrbuf_latched hs hset hfits dev sub
  obtain ⟨k, u, n, hk, hgo, hu, hphase, hrun⟩ := goes_wrbuf_sent (dev := dev) (sub := sub) he hl hopens hacks hlen.le hr
  obtain ⟨hb, -⟩ := hu.fields
  have hhalt := hgo.trans (Goes.point (t := .sendLoop) (ts := closeBus) hb (by rw [hrun]; rfl))
  rw [State.taskStep, State.sendLoopStep_refused _ (by rw [hrun]; rfl) (by rw [hrun]; exact hlen)
    (by rw [(hu.admits _).1, hrun]; exact hrefused), hu.halts hs, hphase] at hhalt
  refine ⟨_, hexec.trans (congrArg _ (hhalt.ended hs.1.2 (by omega))), ?_⟩
  rw [List.append_assoc _ [_, _, _]]

end Sys2Proof.Machine
end

section
/-! SUPPORT. RDBUF up to a byte that fails (spec 42_buffered_operations.md R171, R172; 60_exceptions.md R203). -/

namespace Sys2Proof.Machine

section
variable {s u v : State} {tw : Byte} {w : Bool} {ops : List BusOp} {m : Memory} {e e' : List BusAnswer}

/-- The bytes that RDBUF received and acknowledged, as operations between the two stops. -/
theorem State.Holds.gets {got : List Reply} (h : s.Holds tw w ops m e u) (hgot : u.Received got e' v) :
    s.Holds v.tws v.unset.tws (ops ++ List.replicate got.length (.rx true))
      (m.fill u.run.addr (got.map Reply.data)) e' v := by
  obtain ⟨p, tws, free, n, x, o, rfl⟩ := hgot
  rw [State.Holds]
  conv_lhs => rw [h]
  simp only [List.append_assoc]

/-- RDBUF at a byte up to its store, whatever the byte's status. -/
theorem State.Holds.goes_reads {r : Reply} {rs : List Reply} {rest : List BusAnswer} {ts : List Task}
    (h : s.Holds tw w ops m (repliesTo (r :: rs) rest) u) (ht : u.run.todo = .recvLoop :: ts) (hst : u.run.st = .ok)
    (hidx : u.run.idx < u.run.len) (hl : waitAllowed s.platform r.polls) :
    ∃ v, Goes (r.polls + 4) u v ∧ s.Holds r.status false (ops ++ [.rx u.run.ackNext]) m (repliesTo rs rest) v ∧
      v.phase = .reading ∧
      v.run = { u.run with npoll := r.polls, rx := r.data, todo := .store :: .recvLoop :: ts } := by
  obtain ⟨hb, -, -, hp, he, -⟩ := h.fields
  have hloop := Goes.point hb ht
  rw [State.taskStep, State.recvLoopStep, if_pos ⟨hst, hidx⟩] at hloop
  have hread := hloop.trans (goes_read (s := u.setTodo (.read u.run.ackNext :: .store :: .recvLoop :: ts)) hb rfl hst he
    (hp ▸ hl))
  rw [show 1 + (r.polls + 3) = r.polls + 4 by omega] at hread
  exact ⟨_, hread, h.moved .., rfl, rfl⟩

/-- A byte that RDBUF received and stored, whatever its status. -/
theorem State.Holds.received (h : s.Holds tw w ops m e u) (r : Reply) :
    s.Holds r.status false (ops ++ [.rx u.run.ackNext]) (m.write u.run.addr r.data) e' (u.received r e') := by
  obtain ⟨-, -, -, -, -, -, -, hmem⟩ := h.fields
  rw [State.Holds, State.received, hmem]
  conv_lhs => rw [h]
  simp only [List.append_assoc]

end

/-- TWS after bytes that are each reported as received and acknowledged. -/
theorem goes_recv_status {s : State} {ts : List Task} {rest : List BusAnswer} {good rs : List Reply}
    (hb : s.busy = true) (ht : s.run.todo = .recvLoop :: ts) (hs : s.run.st = .ok)
    (hidx : s.run.idx + good.length < s.run.len) (he : s.env = repliesTo (good ++ rs) rest)
    (hl : ∀ r ∈ good, waitAllowed s.platform r.polls) (hgood : ∀ r ∈ good, r.status = dataRxAck)
    (hset : s.unset.tws = false) (hw : ∀ k < good.length, s.admitsWrite (s.run.addr + k) = true) :
    ∃ u, Goes (5 * good.length + pollCount good) s u ∧ s.Received good (repliesTo rs rest) u ∧
      u.tws = (good.getLast?.map Reply.status).getD s.tws ∧ u.unset.tws = false := by
  obtain rfl | ⟨good, r, rfl⟩ := List.eq_nil_or_concat' good
  · exact ⟨s, Goes.zero s, .nil he, rfl, hset⟩
  · rw [List.length_append, List.length_singleton] at hidx hw ⊢
    rw [List.append_assoc] at he
    obtain ⟨hl, hlr⟩ := List.forall_mem_append.1 hl
    obtain ⟨hgood, hr⟩ := List.forall_mem_append.1 hgood
    obtain ⟨u, hu, hrec⟩ := goes_recv_acked hb ht hs (by omega) he hl hgood fun k hk => hw k (by omega)
    obtain ⟨-, -, hus, -, -, huidx, hulen, -⟩ := hrec.position
    have hbyte := hrec.goes_byte hb ht hs (by omega) (hlr r (by simp)) (hw good.length (by omega))
    have hmore : u.run.atLast = false := beq_false_of_ne (by omega)
    refine ⟨_, ?_, hrec.snoc (hus.trans hs) (hr r (by simp)) hmore, ?_, rfl⟩
    · have hpoints : 5 * (good.length + 1) + pollCount (good ++ [r]) =
          5 * good.length + pollCount good + (r.polls + 5) := by
        rw [pollCount_append, pollCount_cons, pollCount_nil]; omega
      exact hpoints ▸ hu.trans hbyte
    · rw [List.getLast?_concat]
      rfl

/-- `u` is `s` after RDBUF's bytes `good` of `len`, at the head of its loop, with a byte more to come. -/
structure State.Got (s : State) (len : Byte) (good : List Reply) (u : State) : Prop where
  todo : u.run.todo = .recvLoop :: closeBus
  st : u.run.st = .ok
  idx : u.run.idx = good.length
  len : u.run.len = len.toNat
  addr : u.run.addr = s.bufptr.toNat + good.length

/-- The bytes that stand in memory after replies were stored in rising order. -/
theorem Memory.read_fill_replies {m : Memory} {a : Nat} {got : List Reply} (hwf : m.Wf)
    (hfits : a + got.length ≤ Config.bufSpace) :
    (∀ k < got.length, (m.fill a (got.map Reply.data)).read (a + k) = (got.map Reply.data).getD k 0) ∧
      ∀ b, (b < a ∨ a + got.length ≤ b) → (m.fill a (got.map Reply.data)).read b = m.read b := by
  rw [← List.length_map (f := Reply.data)] at hfits ⊢
  exact ⟨fun k => Memory.read_fill_inside hwf hfits, fun b => Memory.read_fill_outside hwf hfits⟩

section
variable {s u : State} {dev : BitVec 7} {sub len : Byte} {x y r1 r2 r3 r4 r5 : Reply} {good : List Reply}
  {e rest : List BusAnswer}

/-- RDBUF up to the head of its loop, after the bytes of `good`. -/
theorem goes_rdbuf_got (he : s.env = repliesTo (approach s.held x ([r1, r2, r3, r4, r5] ++ good)) e)
    (hl : ∀ r ∈ approach s.held x ([r1, r2, r3, r4, r5] ++ good), waitAllowed s.platform r.polls)
    (hopens : Opens s.platform r1 r2 r3) (hturns : Turns s.platform r4 r5) (hgood : ∀ r ∈ good, r.status = dataRxAck)
    (hlen : good.length < len.toNat) (hw : ∀ k < good.length, s.admitsWrite (s.bufptr.toNat + k) = true) :
    ∃ k u, k ≤ 5 * good.length + 13 + pollCount (approach s.held x ([r1, r2, r3, r4, r5] ++ good)) ∧
      Goes k (s.latchedAt (.rdbuf dev sub len) s.bufptr) u ∧
      s.Holds ((good.getLast?.map Reply.status).getD r5.status) false
        ([.startCond, .tx (sla dev false), .tx sub, .startCond, .tx (sla dev true)] ++
          List.replicate good.length (.rx true))
        (s.mem.fill s.bufptr.toNat (good.map Reply.data)) e u ∧ s.Got len good u := by
  rw [approach_append] at he hl ⊢
  rw [repliesTo_append] at he
  obtain ⟨hlo, hlg⟩ := List.forall_mem_append.1 hl
  obtain ⟨k, u, n, hk, hopen, hu, hrun⟩ := goes_turned (i := .rdbuf dev sub len) (lb := s.bufptr)
    (ts := .recvLoop :: closeBus) rfl he hlo hopens hturns
  obtain ⟨hb, -, -, hp, henv, htws, hset, -⟩ := hu.fields
  have haddr : u.run.addr = s.bufptr.toNat := by rw [hrun]; rfl
  have hidx : u.run.idx = 0 := by rw [hrun]; rfl
  have hulen : u.run.len = len.toNat := by rw [hrun]; rfl
  have hst : u.run.st = .ok := by rw [hrun]; rfl
  have htodo : u.run.todo = .recvLoop :: closeBus := by rw [hrun]
  have hadmits : ∀ k < good.length, u.admitsWrite (u.run.addr + k) = true := fun k hk => by
    rw [(hu.admits _).2, haddr]
    exact hw k hk
  obtain ⟨v, hloop, hgot, hvtws, hvset⟩ := goes_recv_status (s := u) (rs := []) (rest := e) hb htodo hst (by omega)
    (by rw [List.append_nil]; exact henv) (hp ▸ hlg) hgood hset hadmits
  obtain ⟨-, hvtodo, hvst, -, -, hvidx, hvlen, hvaddr⟩ := hgot.position
  have hv := hu.gets hgot
  rw [hvtws, hvset, htws, haddr] at hv
  refine ⟨_, v, ?_, hopen.trans hloop, hv, hvtodo.trans htodo, hvst.trans hst, by omega, hvlen.trans hulen, by omega⟩
  rw [pollCount_append]
  omega

/-- Whether RDBUF's next byte is the last, and with what it is answered (R171). -/
theorem State.Got.ackNext (h : s.Got len good u) : u.run.ackNext = decide (good.length + 1 ≠ len.toNat) := by
  rw [Run.ackNext, Run.atLast, h.idx, h.len, decide_not]
  rfl

end

/-- Settles O41: the byte is stored before its status is checked, and the loop ends at the check. -/
theorem rdbufStopsAtABadByte : Obligations.RdbufStopsAtABadByte := by
  rintro s dev sub len x y r1 r2 r3 r4 r5 bad good _ rest hs hwf ⟨hset, hfits, hw⟩ hopens hturns hgood hbad hlen rfl
    hhears hpace
  have hexec := exec_rdbuf_latched hs hset hfits dev sub
  obtain ⟨he, hlx, hl, hy⟩ := hhears.split
  obtain ⟨k, u, hk, hgo, hu, hgot⟩ := goes_rdbuf_got (dev := dev) (sub := sub) (len := len) he hlx hopens hturns hgood
    (by omega) fun k hk => hw k (by omega)
  obtain ⟨hb, -, -, hp, henv, -⟩ := hu.fields
  have hmore : u.run.atLast = false := beq_false_of_ne (by rw [hgot.idx, hgot.len]; omega)
  have hbyte := goes_recv_byte (ts := closeBus) hb hgot.todo hgot.st (by rw [hgot.idx, hgot.len]; omega) henv
    (hp ▸ hl bad (by simp)) (by rw [(hu.admits _).2, hgot.addr]; exact hw _ (by omega))
  have hst : (u.received bad (repliesTo [y] rest)).run.st = .slaveDataNotAcknowledging := if_pos ⟨hmore, hbad⟩
  have hend := hu.received (e' := repliesTo [y] rest) bad
  rw [hgot.ackNext, decide_eq_true (by omega), List.append_assoc, ← List.replicate_succ', hgot.addr,
    ← Memory.fill_map_concat] at hend
  simp only [pollCount_transaction, pollCount_approach, pollCount_append, pollCount_cons, pollCount_nil] at hpace hk
  obtain ⟨t, ht, hclosed⟩ := exec_closes (mid := [.recvLoop]) hs hexec (by simp [Task.skips]) hy (hgo.trans hbyte)
    hend hgot.todo hst (.inr (by decide)) (by simp only [List.length_cons, List.length_nil]; omega)
  have hmem : t.mem = s.mem.fill s.bufptr.toNat ((good ++ [bad]).map Reply.data) := hclosed.mem_eq
  obtain ⟨hin, hout⟩ := Memory.read_fill_replies (m := s.mem) (a := s.bufptr.toNat) (got := good ++ [bad]) hwf
    (by rw [List.length_append, List.length_singleton]; exact le_trans (by omega) hfits)
  rw [List.length_append, List.length_singleton, ← hmem, List.map_append] at hin
  rw [List.length_append, List.length_singleton, ← hmem] at hout
  refine ⟨t, ht, by rw [hmem]; exact hclosed, fun k hk => ?_, ?_, fun b hb => hout b (by omega)⟩
  · rw [hin k (by omega), List.getD_append _ _ _ _ (by rw [List.length_map]; exact hk)]
  · rw [hin _ (Nat.lt_succ_self _), List.getD_append_right _ _ _ _ (by rw [List.length_map]), List.length_map,
      Nat.sub_self]
    rfl

/-- Settles O43: the refused byte ends the command at its store. -/
theorem refusedWriteHaltsRdbuf : Obligations.RefusedWriteHaltsRdbuf := by
  rintro s dev sub len x r1 r2 r3 r4 r5 last good _ rest hs hwf hset hfits hlen hw hrefused hopens hturns hgood rfl
    ⟨he, hl⟩ hpace
  have hexec := exec_rdbuf_latched hs hset hfits dev sub
  rw [approach_append] at he hl
  rw [repliesTo_append] at he
  obtain ⟨hl, hlast⟩ := List.forall_mem_append.1 hl
  obtain ⟨k, u, hk, hgo, hu, hgot⟩ := goes_rdbuf_got (dev := dev) (sub := sub) (len := len) he hl hopens hturns hgood
    hlen hw
  have hidx : u.run.idx < u.run.len := by rw [hgot.idx, hgot.len]; exact hlen
  obtain ⟨v, hread, hv, hphase, hrun⟩ := hu.goes_reads hgot.todo hgot.st hidx (hlast last (by simp))
  obtain ⟨hb, -⟩ := hv.fields
  have hhalt := (hgo.trans hread).trans (Goes.point (t := .store) (ts := .recvLoop :: closeBus) hb (by rw [hrun]))
  have hrefused' : v.admitsWrite v.run.addr = false := by
    rw [(hv.admits _).2, hrun]
    exact hgot.addr ▸ hrefused
  rw [State.taskStep, State.storeStep_refused _ (by rw [hrun]; exact hgot.st) hrefused', hv.halts hs, hphase,
    hgot.ackNext] at hhalt
  simp only [approach_append, pollCount_approach, pollCount_append, pollCount_cons, pollCount_nil] at hpace hk
  obtain ⟨hin, hout⟩ := Memory.read_fill_replies (m := s.mem) (a := s.bufptr.toNat) (got := good) hwf
    (le_trans (by omega) hfits)
  refine ⟨_, hexec.trans (congrArg _ (hhalt.ended hs.1.2 (by omega))), ?_, hin, hout⟩
  simp only [List.append_assoc, repliesTo, List.foldr_nil]

end Sys2Proof.Machine
end

section
/-! SUPPORT. A bus operation of a buffered command that stays unanswered under a poll limit (spec 41_phase_primitives.md
R121; 42_buffered_operations.md R181): the operation by its place between the two stops. -/

namespace Sys2Proof.Machine

/-- What is asked of a buffered command whose operation after the replies `rs` stays unanswered for `l` polls. -/
structure State.Unanswered (s : State) (i : Instr) (x y : Reply) (rs : List Reply) (l : Nat)
    (rest : List BusAnswer) : Prop where
  accepting : s.Accepting
  pos : 1 ≤ l
  limit : s.platform.pollLimit = some l
  short : rs.length < (busPlan s i).length
  passed : ∀ c ∈ rs.zip (busPlan s i), c.1.status ∈ c.2.2
  env : s.env = repliesTo (approach s.held x rs) (List.replicate l .notYet ++ repliesTo [y] rest)
  waits : ∀ r ∈ approach s.held x rs, waitAllowed s.platform r.polls
  cleanup : waitAllowed s.platform y.polls
  pace : 5 * cmdLen i + 20 + ((if s.held then x.polls else 0) + pollCount rs + y.polls) + l ≤ s.pace

/-- The command `i` ends with Timeout after the replies `rs`, with the bus free and the memory `m`. -/
def State.TimesOut (s : State) (i : Instr) (rs : List Reply) (rest : List BusAnswer) (m : Memory) : Prop :=
  ∃ t, exec i s = .next t ∧ s.Closed .timeout ((rs.getLast?.map Reply.status).getD s.tws)
    (s.unset.tws && rs.isEmpty) (((busPlan s i).take (rs.length + 1)).map Prod.fst) m rest t

theorem State.TimesOut.of_closed {s : State} {i : Instr} {rs : List Reply} {rest : List BusAnswer} {m : Memory}
    {tw : Byte} {ops : List BusOp} (hrs : rs ≠ [])
    (h : ∃ t, exec i s = .next t ∧ s.Closed .timeout tw false ops m rest t)
    (htws : (rs.getLast?.map Reply.status).getD s.tws = tw)
    (hops : ((busPlan s i).take (rs.length + 1)).map Prod.fst = ops) : s.TimesOut i rs rest m := by
  rw [State.TimesOut, htws, hops, List.isEmpty_eq_false_iff.2 hrs, Bool.and_false]
  exact h

/-! ## Facts about the plan and the replies -/

theorem busPlan_buffered (s : State) {i : Instr} {dev : BitVec 7} {sub arg : Byte}
    (hi : i = .wrsingle dev sub arg ∨ i = .wrbuf dev sub arg ∨ i = .rdbuf dev sub arg) :
    ∃ more, busPlan s i = [(.startCond, s.platform.startBytes), (.tx (sla dev false), [slaWAck, slaRAck]),
      (.tx sub, [dataTxAck])] ++ more := by
  obtain rfl | rfl | rfl := hi <;> exact ⟨_, rfl⟩

/-- The operations of the plan, up to one of its data bytes. -/
theorem map_fst_take_range {n j : Nat} (hj : j < n) (f : Nat → BusOp) (b : List Byte) :
    (((List.range n).map fun k => (f k, b)).take (j + 1)).map Prod.fst = (List.range j).map f ++ [f j] := by
  rw [← List.map_take, List.take_range, Nat.min_eq_left hj, List.map_map, List.range_succ, List.map_append]
  rfl

/-- The replies to data bytes that pass their check. -/
theorem status_of_zip {rs : List Reply} {n : Nat} {f : Nat → BusOp} {b : Byte}
    (h : ∀ c ∈ rs.zip ((List.range n).map fun k => (f k, [b])), c.1.status ∈ c.2.2) (hlen : rs.length ≤ n) :
    ∀ r ∈ rs, r.status = b := by
  intro r hr
  have hfst := List.map_fst_zip (l₁ := rs) (l₂ := (List.range n).map fun k => (f k, [b]))
    (by rw [List.length_map, List.length_range]; exact hlen)
  rw [← hfst] at hr
  obtain ⟨⟨r, op⟩, hc, rfl⟩ := List.mem_map.1 hr
  obtain ⟨k, -, rfl⟩ := List.mem_map.1 (List.of_mem_zip hc).2
  exact List.mem_singleton.1 (h _ hc)

/-- The first reply passes the first check of the plan, and the others pass the others. -/
theorem passed_cons {r : Reply} {rs : List Reply} {p : BusOp × List Byte} {plan : List (BusOp × List Byte)}
    (h : ∀ c ∈ (r :: rs).zip (p :: plan), c.1.status ∈ c.2.2) :
    r.status ∈ p.2 ∧ ∀ c ∈ rs.zip plan, c.1.status ∈ c.2.2 := List.forall_mem_cons.1 h

theorem ackedAddress_of_mem {b : Byte} (h : b ∈ [slaWAck, slaRAck]) : ackedAddress b :=
  (List.mem_cons.1 h).imp_right List.mem_singleton.1

/-- The status of the last reply, with a reply and more after the first ones. -/
theorem lastStatus_append_cons (front more : List Reply) (r : Reply) (b : Byte) :
    ((front ++ r :: more).getLast?.map Reply.status).getD b = (more.getLast?.map Reply.status).getD r.status := by
  rw [List.getLast?_append, List.getLast?_cons]
  cases more.getLast? <;> rfl

theorem lastStatus_of_forall {rs : List Reply} {b : Byte} (h : ∀ r ∈ rs, r.status = b) :
    (rs.getLast?.map Reply.status).getD b = b := by
  cases hlast : rs.getLast? with
  | none => rfl
  | some r => exact h r (List.mem_of_getLast? hlast)

/-- The acknowledge bits of bytes that are not the last (R171). -/
theorem map_rx_range {n len : Nat} (h : n < len) :
    (List.range n).map (fun k => BusOp.rx (decide (k + 1 ≠ len))) = List.replicate n (.rx true) := by
  rw [List.eq_replicate_iff, List.length_map, List.length_range]
  refine ⟨rfl, fun op hop => ?_⟩
  obtain ⟨k, hk, rfl⟩ := List.mem_map.1 hop
  rw [decide_eq_true (by have := List.mem_range.1 hk; omega)]

/-! ## The operation by its place -/

section
variable {s : State} {i : Instr} {lb : Addr} {dev : BitVec 7} {sub arg len b : Byte} {x y r1 r2 r3 r4 r5 : Reply}
  {rs more : List Reply} {l : Nat} {rest : List BusAnswer}

/-- The checks of the opening. -/
theorem State.Unanswered.opens
    (hi : i = .wrsingle dev sub arg ∨ i = .wrbuf dev sub arg ∨ i = .rdbuf dev sub arg)
    (h : s.Unanswered i x y (r1 :: r2 :: r3 :: more) l rest) : Opens s.platform r1 r2 r3 := by
  obtain ⟨plan, hplan⟩ := busPlan_buffered s hi
  have hpassed := h.passed
  rw [hplan] at hpassed
  obtain ⟨h1, hpassed⟩ := passed_cons hpassed
  obtain ⟨h2, hpassed⟩ := passed_cons hpassed
  exact ⟨h1, ackedAddress_of_mem h2, List.mem_singleton.1 (passed_cons hpassed).1⟩

/-- The start, the address byte or the sub-address stays unanswered. -/
theorem State.Unanswered.opening
    (hi : i = .wrsingle dev sub arg ∨ i = .wrbuf dev sub arg ∨ i = .rdbuf dev sub arg)
    (hexec : exec i s = .next ((s.latchedAt i lb).runBlock s.pace)) (h : s.Unanswered i x y rs l rest)
    (hrs : rs.length < 3) : s.TimesOut i rs rest s.mem := by
  obtain ⟨mid, hbody, hmid, hlen⟩ := commandBody_buffered hi
  obtain ⟨plan, hplan⟩ := busPlan_buffered s hi
  obtain ⟨hs, hpos, hlimit, -, hpassed, he, hl, hy, hpace⟩ := h
  rw [State.TimesOut, hplan]
  rw [hplan] at hpassed
  match rs, hrs with
  | [], _ =>
    rw [List.isEmpty_nil, Bool.and_true]
    exact exec_start_fails hs hexec (skips_write_cons hmid) hy hbody he hl (.startExpired hpos hlimit rfl) rfl
      (by simp only [pollCount_approach, pollCount_nil, List.length_cons] at *; omega)
  | [r1], _ =>
    rw [List.isEmpty_cons, Bool.and_false]
    rw [approach_eq] at he hl
    rw [repliesTo_append] at he
    obtain ⟨hlx, hlr⟩ := List.forall_mem_append.1 hl
    exact exec_start_fails hs hexec (skips_write_cons hmid) hy hbody he hlx
      (.addrExpired hpos hlimit rfl (hlr r1 (by simp)) (passed_cons hpassed).1) rfl
      (by simp only [pollCount_approach, pollCount_cons, pollCount_nil, List.length_cons] at *; omega)
  | [r1, r2], _ =>
    obtain ⟨h1, hpassed⟩ := passed_cons hpassed
    have h2 := ackedAddress_of_mem (passed_cons hpassed).1
    rw [List.isEmpty_cons, Bool.and_false]
    exact exec_sub_fails hs hexec hmid hy hbody he hl h1 h2 (.writeExpired hpos hlimit rfl) rfl
      (by simp only [pollCount_approach, pollCount_cons, pollCount_nil] at *; omega)

/-- WRSINGLE's byte stays unanswered. -/
theorem State.Unanswered.wrsingle (h : s.Unanswered (.wrsingle dev sub b) x y [r1, r2, r3] l rest)
    (hexec : exec (.wrsingle dev sub b) s = .next ((s.latchedAt (.wrsingle dev sub b) lb).runBlock s.pace)) :
    s.TimesOut (.wrsingle dev sub b) [r1, r2, r3] rest s.mem := by
  have hopens := h.opens (.inl rfl)
  obtain ⟨hs, hpos, hlimit, -, -, he, hl, hy, hpace⟩ := h
  obtain ⟨k, u, n, hk, hgo, hu, -, hrun⟩ := goes_opened (i := .wrsingle dev sub b) (lb := lb)
    (ts := .write b :: closeBus) rfl he hl hopens
  simp only [pollCount_approach, pollCount_cons, pollCount_nil, cmdLen] at hpace hk
  rw [State.TimesOut, List.isEmpty_cons, Bool.and_false]
  rw [← hopens.2.2] at hu
  exact exec_fails (mid := []) hs hexec (by simp) hy hgo hu (by rw [hrun]; rfl) (by rw [hrun]; rfl)
    (.writeExpired hpos hlimit rfl) rfl (by simp only [List.length_nil]; omega)

/-- A byte of WRBUF's buffer stays unanswered. -/
theorem State.Unanswered.wrbuf (h : s.Unanswered (.wrbuf dev sub len) x y (r1 :: r2 :: r3 :: more) l rest)
    (husable : s.BufferUsable (.wrbuf dev sub len)) :
    s.TimesOut (.wrbuf dev sub len) (r1 :: r2 :: r3 :: more) rest s.mem := by
  have hopens := h.opens (.inr (.inl rfl))
  obtain ⟨hset, hfits, hr⟩ := husable
  obtain ⟨hs, hpos, hlimit, hshort, hpassed, he, hl, hy, hpace⟩ := h
  have hmore : more.length < len.toNat := by
    simp only [busPlan, List.length_append, List.length_cons, List.length_map, List.length_range, List.length_nil]
      at hshort
    omega
  have hacks : ∀ r ∈ more, r.status = dataTxAck :=
    status_of_zip (passed_cons (passed_cons (passed_cons hpassed).2).2).2 hmore.le
  obtain ⟨k, u, n, hk, hgo, hu, -, hrun⟩ := goes_wrbuf_sent (dev := dev) (sub := sub) (r1 := r1) (r2 := r2) (r3 := r3)
    (acks := more) he hl hopens hacks hmore.le fun k hk => hr k (hk.trans hmore)
  have hops := congrArg ([.startCond, .tx (sla dev false), .tx sub] ++ ·)
    (map_fst_take_range hmore (fun k => .tx (s.mem.read (s.bufptr.toNat + k))) [dataTxAck])
  have htws := lastStatus_append_cons [r1, r2] more r3 s.tws
  rw [hopens.2.2, lastStatus_of_forall hacks] at htws
  refine .of_closed (by simp) (exec_send_fails hs (exec_wrbuf_latched hs hset hfits dev sub) hy hgo hu hrun hmore
    (hr _ hmore) (.writeExpired hpos hlimit rfl) rfl ?_) htws (hops.trans (List.append_assoc ..).symm)
  simp only [pollCount_approach, pollCount_append, pollCount_cons, pollCount_nil, cmdLen] at hpace hk ⊢
  omega

/-- RDBUF's repeated start stays unanswered. -/
theorem State.Unanswered.turn (h : s.Unanswered (.rdbuf dev sub len) x y [r1, r2, r3] l rest)
    (hexec : exec (.rdbuf dev sub len) s = .next ((s.latchedAt (.rdbuf dev sub len) lb).runBlock s.pace)) :
    s.TimesOut (.rdbuf dev sub len) [r1, r2, r3] rest s.mem := by
  have hopens := h.opens (.inr (.inr rfl))
  obtain ⟨hs, hpos, hlimit, -, -, he, hl, hy, hpace⟩ := h
  obtain ⟨k, u, n, hk, hgo, hu, -, hrun⟩ := goes_opened (i := .rdbuf dev sub len) (lb := lb)
    (ts := .start (sla dev true) :: .recvLoop :: closeBus) rfl he hl hopens
  refine .of_closed (by simp) (exec_fails (mid := [.recvLoop]) hs hexec (by simp [Task.skips]) hy hgo hu
    (by rw [hrun]; rfl) (by rw [hrun]; rfl) (.startExpired hpos hlimit rfl) rfl ?_) hopens.2.2 rfl
  simp only [pollCount_approach, pollCount_cons, pollCount_nil, List.length_cons, List.length_nil] at hpace hk ⊢
  omega

/-- RDBUF's read address stays unanswered. -/
theorem State.Unanswered.turnAddr (h : s.Unanswered (.rdbuf dev sub len) x y [r1, r2, r3, r4] l rest)
    (hexec : exec (.rdbuf dev sub len) s = .next ((s.latchedAt (.rdbuf dev sub len) lb).runBlock s.pace)) :
    s.TimesOut (.rdbuf dev sub len) [r1, r2, r3, r4] rest s.mem := by
  have hopens := h.opens (.inr (.inr rfl))
  obtain ⟨hs, hpos, hlimit, -, hpassed, he, hl, hy, hpace⟩ := h
  have h4 := (passed_cons (passed_cons (passed_cons (passed_cons hpassed).2).2).2).1
  rw [show [r1, r2, r3, r4] = [r1, r2, r3] ++ [r4] from rfl, approach_append] at he hl
  rw [repliesTo_append] at he
  obtain ⟨hl, hl4⟩ := List.forall_mem_append.1 hl
  obtain ⟨k, u, n, hk, hgo, hu, -, hrun⟩ := goes_opened (i := .rdbuf dev sub len) (lb := lb)
    (ts := .start (sla dev true) :: .recvLoop :: closeBus) rfl he hl hopens
  refine .of_closed (by simp) (exec_fails (mid := [.recvLoop]) hs hexec (by simp [Task.skips]) hy hgo hu
    (by rw [hrun]; rfl) (by rw [hrun]; rfl) (.addrExpired hpos hlimit rfl (hl4 r4 (by simp)) h4) rfl ?_) rfl rfl
  simp only [pollCount_approach, pollCount_cons, pollCount_nil, List.length_cons, List.length_nil] at hpace hk ⊢
  omega

/-- A byte that RDBUF receives stays unanswered: it is not stored. -/
theorem State.Unanswered.rdbuf (h : s.Unanswered (.rdbuf dev sub len) x y ([r1, r2, r3, r4, r5] ++ more) l rest)
    (husable : s.BufferUsable (.rdbuf dev sub len)) :
    s.TimesOut (.rdbuf dev sub len) ([r1, r2, r3, r4, r5] ++ more) rest
      (s.mem.fill s.bufptr.toNat (more.map Reply.data)) := by
  have hopens := h.opens (.inr (.inr rfl))
  obtain ⟨hset, hfits, hw⟩ := husable
  obtain ⟨hs, hpos, hlimit, hshort, hpassed, he, hl, hy, hpace⟩ := h
  have hmore : more.length < len.toNat := by
    simp only [busPlan, List.length_append, List.length_cons, List.length_map, List.length_range, List.length_nil]
      at hshort
    omega
  obtain ⟨h4, hpassed⟩ := passed_cons (passed_cons (passed_cons (passed_cons hpassed).2).2).2
  obtain ⟨h5, hpassed⟩ := passed_cons hpassed
  obtain ⟨k, u, hk, hgo, hu, hgot⟩ := goes_rdbuf_got (dev := dev) (sub := sub) (len := len) he hl hopens
    ⟨h4, ackedAddress_of_mem h5⟩ (status_of_zip hpassed hmore.le) hmore fun k hk => hw k (hk.trans hmore)
  obtain ⟨hb, -⟩ := hu.fields
  have hloop := hgo.trans (Goes.point hb hgot.todo)
  rw [State.taskStep, State.recvLoopStep, if_pos ⟨hgot.st, by rw [hgot.idx, hgot.len]; exact hmore⟩, hgot.ackNext]
    at hloop
  have hops := congrArg ([.startCond, .tx (sla dev false), .tx sub, .startCond, .tx (sla dev true)] ++ ·)
    (map_fst_take_range hmore (fun k => .rx (decide (k + 1 ≠ len.toNat))) [dataRxAck])
  rw [map_rx_range hmore] at hops
  refine .of_closed (by simp) (exec_fails (mid := [.store, .recvLoop]) hs (exec_rdbuf_latched hs hset hfits dev sub)
    (by simp [Task.skips]) hy hloop (hu.run _) rfl hgot.st (.readExpired hpos hlimit rfl) rfl ?_)
    (lastStatus_append_cons [r1, r2, r3, r4] more r5 s.tws) (hops.trans (List.append_assoc ..).symm)
  simp only [pollCount_approach, pollCount_append, pollCount_cons, pollCount_nil, List.length_cons, List.length_nil,
    cmdLen] at hpace hk ⊢
  omega

end

section
variable {s : State} {dev : BitVec 7} {sub len b : Byte} {x y : Reply} {rs : List Reply} {l : Nat}
  {rest : List BusAnswer}

/-- An expired WRBUF, by the place of the operation. -/
theorem State.Unanswered.wrbuf_timesOut (h : s.Unanswered (.wrbuf dev sub len) x y rs l rest)
    (husable : s.BufferUsable (.wrbuf dev sub len)) : s.TimesOut (.wrbuf dev sub len) rs rest s.mem := by
  have hexec := exec_wrbuf_latched h.accepting husable.1 husable.2.1 dev sub
  match rs with
  | [] | [_] | [_, _] => exact h.opening (.inr (.inl rfl)) hexec (by simp)
  | _ :: _ :: _ :: _ => exact h.wrbuf husable

/-- An expired WRSINGLE. -/
theorem State.Unanswered.wrsingle_timesOut (h : s.Unanswered (.wrsingle dev sub b) x y rs l rest) :
    s.TimesOut (.wrsingle dev sub b) rs rest s.mem := by
  obtain ⟨lb, hexec⟩ := exec_buffered_accepting (i := .wrsingle dev sub b) h.accepting (.inl rfl)
  match rs with
  | [] | [_] | [_, _] => exact h.opening (.inl rfl) hexec (by simp)
  | [_, _, _] => exact h.wrsingle hexec
  | _ :: _ :: _ :: _ :: _ => exact absurd h.short (by simp [busPlan])

/-- An expired RDBUF; the bytes after its read address stand in memory. -/
theorem State.Unanswered.rdbuf_timesOut (h : s.Unanswered (.rdbuf dev sub len) x y rs l rest)
    (husable : s.BufferUsable (.rdbuf dev sub len)) :
    s.TimesOut (.rdbuf dev sub len) rs rest (s.mem.fill s.bufptr.toNat ((rs.drop 5).map Reply.data)) := by
  have hexec := exec_rdbuf_latched h.accepting husable.1 husable.2.1 dev sub
  match rs with
  | [] | [_] | [_, _] => exact h.opening (.inr (.inr rfl)) hexec (by simp)
  | [_, _, _] => exact h.turn hexec
  | [_, _, _, _] => exact h.turnAddr hexec
  | _ :: _ :: _ :: _ :: _ :: _ => exact h.rdbuf husable

end

/-- Settles O56: each buffered command by the place of the operation that expires. -/
theorem bufferedTimeouts : Obligations.BufferedTimeouts := by
  intro s i x y rs l rest hbuffered hs hwf husable hpos hlimit hshort hpassed ⟨he, hl⟩ hy hpace
  rw [pollCount_transaction] at hpace
  have h : s.Unanswered i x y rs l rest := ⟨hs, hpos, hlimit, hshort, hpassed, he, hl, hy, hpace⟩
  cases i with
  | init _ | start _ | stop | write _ | read _ => cases hbuffered
  | wrbuf dev sub len =>
    obtain ⟨t, ht, hclosed⟩ := h.wrbuf_timesOut husable
    have hmem : t.mem = s.mem := hclosed.mem_eq
    exact ⟨t, ht, by rw [hmem]; exact hclosed, fun _ => hmem, nofun⟩
  | wrsingle dev sub b =>
    obtain ⟨t, ht, hclosed⟩ := h.wrsingle_timesOut
    have hmem : t.mem = s.mem := hclosed.mem_eq
    exact ⟨t, ht, by rw [hmem]; exact hclosed, fun _ => hmem, nofun⟩
  | rdbuf dev sub len =>
    obtain ⟨t, ht, hclosed⟩ := h.rdbuf_timesOut husable
    have hmem : t.mem = s.mem.fill s.bufptr.toNat ((rs.drop 5).map Reply.data) := hclosed.mem_eq
    refine ⟨t, ht, by rw [hmem]; exact hclosed, fun hother => absurd rfl (hother dev sub len), fun _ _ _ _ => ?_⟩
    obtain ⟨-, hfits, -⟩ := husable
    have hlen : rs.length < 5 + len.toNat := by
      simp only [busPlan, List.length_append, List.length_cons, List.length_map, List.length_range, List.length_nil]
        at hshort
      omega
    rw [hmem, ← List.length_drop]
    exact Memory.read_fill_replies hwf (by rw [List.length_drop]; exact le_trans (by omega) hfits)

end Sys2Proof.Machine
end
